-- ==== Sys2Proof/Word.lean ====
section
/-! DEFINITION. The words and index types of the Hergal HB256-4. -/

namespace Sys2Proof

/-- A register or data word of a port, 16 bits (R166). -/
abbrev Word := BitVec 16
/-- One byte of the Memory Array (R118). -/
abbrev Byte := BitVec 8
/-- A port, P0 to P3. -/
abbrev Port := Fin 4
/-- A buffer index, 0 to 255 (R1). -/
abbrev BufIx := Fin 256
/-- A channel number, 0 to 15 (R43). -/
abbrev ChanIx := Fin 16
/-- A bank of the array, 0 to 3 (R118). -/
abbrev BankIx := Fin 4
/-- A set of ports as the register window lays it out: bit n is Pn (R168). -/
abbrev PortMask := BitVec 4
/-- A buffer's generation, 0 to 127; adding 1 wraps 127 to 0 (R6). -/
abbrev Gen := BitVec 7

end Sys2Proof
end

