-- ==== Sys2Proof/Syntax.lean ====
section
/-! DEFINITION. The commands of the device: one constructor of Instr for each row of spec/opcode_table.json. -/

namespace Sys2Proof

/-- One of a port's two data windows (R86). -/
inductive WindowSel where
  | a | b
deriving DecidableEq, Repr

/-- The byte enables of a bus write: `lo` when /PBL, `hi` when /PBH is asserted (R94). -/
structure Lanes where
  lo : Bool
  hi : Bool
deriving DecidableEq, Repr

/-- A read's strobe: held until /PWAIT is released, or risen before that, so that the word read is discarded (R165; log 14). -/
inductive Strobe where
  | held | early
deriving DecidableEq, Repr

/-- A bus read at a port, with the strobe its master gives it (R165; log 14). -/
structure BusRead where
  port : Port
  strobe : Strobe
deriving DecidableEq, Repr

/-- A role in a buffer: the holding, or one port's reader role (R75). -/
inductive LeaseRole where
  | holder
  | reader (p : Port)
deriving DecidableEq, Repr

/-- The two moments of a request (R24, R17, R29; log 1): the REQ write with its flags, both byte enables asserted, and the
moment it is carried out, which is the grant of its (first) table operation, or the moment another block carries it out. -/
inductive ReqMoment where
  | written (zero head : Bool)
  | carriedOut
deriving DecidableEq, Repr

/-- The two moments of a bank grant (R126; log 2): the Bank Arbiter's grant, at which the access is checked and takes effect,
and the moment it has been carried out, at which the bank becomes free. -/
inductive BankMoment where
  | granted
  | carriedOut
deriving DecidableEq, Repr

/-- The commands. A row that is a table operation or bank grant takes effect only when its arbiter grants it (log 3). -/
inductive Instr where
  -- requests (Chapters 2 to 6, 8 and 10)
  | claim (p : Port) (m : ReqMoment)
  | release (p : Port) (m : ReqMoment)
  | adopt (p : Port) (m : ReqMoment)
  | renew (p : Port) (m : ReqMoment)
  | query (p : Port) (m : ReqMoment)
  | cancel (p : Port) (zero head : Bool)
  | cancelOperation (p : Port)
  | badRequest (p : Port) (word : Word)
  | refused (p : Port) (word : Word) (lanes : Lanes)
  | openChannel (p : Port) (m : ReqMoment)
  | post (p : Port) (m : ReqMoment)
  | take (p : Port) (m : ReqMoment)
  | channelStatus (p : Port) (m : ReqMoment)
  | closeChannel (p : Port) (m : ReqMoment)
  | closeStep (p : Port)
  | closeLastStep (p : Port)
  | setLease (p : Port) (m : ReqMoment)
  | map (p : Port) (m : ReqMoment)
  | unmap (p : Port) (m : ReqMoment)
  | fill (p : Port) (m : ReqMoment)
  | copy (p : Port) (m : ReqMoment)
  | zeroFillStart (p : Port)
  | fillBurst (p : Port) (m : BankMoment)
  | copyBurstRead (p : Port) (m : BankMoment)
  | copyBurstWrite (p : Port) (m : BankMoment)
  | endStep (p : Port)
  | attach (p : Port) (m : ReqMoment)
  | quiesce (p : Port) (m : ReqMoment)
  | resume (p : Port) (m : ReqMoment)
  | detach (p : Port) (m : ReqMoment)
  | setParam (p : Port) (m : ReqMoment)
  | setQuota (p : Port) (m : ReqMoment)
  | clearStatus (p : Port) (m : ReqMoment)
  -- waits and leases (Chapter 4)
  | waitTimerExpiry (p : Port)
  | timeoutOperation (p : Port)
  | leaseRunOut (b : BufIx) (role : LeaseRole)
  | expiryOperation
  -- windows and the stream (Chapter 5); `word` is the word index, half the byte offset in the window
  | windowRead (p : BusRead) (w : WindowSel) (word : BitVec 8)
  | windowReadGrant (p : Port) (m : BankMoment)
  | windowWrite (p : Port) (w : WindowSel) (word : BitVec 8) (data : Word) (lanes : Lanes)
  | windowWriteGrant (p : Port) (m : BankMoment)
  | streamSettingsWrite (p : Port) (data : Word) (lanes : Lanes)
  | streamDataRead (p : BusRead)
  | streamReadGrant (p : Port) (m : BankMoment)
  | streamDataWrite (p : Port) (data : Word) (lanes : Lanes)
  | streamWriteGrant (p : Port) (m : BankMoment)
  -- registers (Chapters 9 and 11); `addr` is the word address on PA10 to PA1
  | note0Pop (p : BusRead)
  | pstatWrite (p : Port) (data : Word) (lanes : Lanes)
  | pcfgWrite (p : Port) (data : Word) (lanes : Lanes)
  | registerWrite (p : Port) (addr : BitVec 10) (data : Word) (lanes : Lanes)
  -- time and refresh (Chapters 7 and 10)
  | usTick
  | msTick
  | intervalExpiry
  | rowRefresh (k : BankIx) (m : BankMoment)
  -- pins and teardown (Chapters 8 and 11)
  | prstFalling (p : Port)
  | prstRising (p : Port)
  | fenceStep (p : Port)
  | roleStep (p : Port)
  | channelStep (p : Port)
  | finalStep (p : Port)
  | resetFalling
  | resetRising (supen : Bool) (sup : Port)
  | powerOn
deriving DecidableEq, Repr

end Sys2Proof
end

