-- ==== Sys2Proof/Config.lean ====
section
/-! DEFINITION. What the implementation fixes, and the free values: what the spec leaves open, as constants with no body. -/

namespace Sys2Proof

/-- The retention time of a row in µs ticks, 4 ms; a row that goes unrefreshed for longer may lose bits (11.6, R130; log 8). -/
def Config.retentionTicks : Nat := 4000

/-- Free value (R121, R130; log 7): the byte that the `epoch`-th undefined contents of its row hold at array key `a`. -/
opaque Config.undefinedByte (epoch a : Nat) : Byte

/-- Free value (R121, R130; log 7): the parity bit stored with that byte, which need not match it. -/
opaque Config.undefinedParity (epoch a : Nat) : Bool

/-- Free value (R115; log 17): whether, at the `n`-th end step that frees both buffers of a COPY, the source enters FREE first. -/
opaque Config.sourceFreedFirst (n : Nat) : Bool

end Sys2Proof
end

