-- ==== Sys2Proof/Machine/State.lean ====
section
/-! DEFINITION. The state of the device, as plain data, and its value after reset; the reasons a step can stop. -/

namespace Sys2Proof.Machine

/-- Nothing in the spec stops the device, so no step ends in a fault: the type has no constructor. -/
inductive Fault
deriving DecidableEq, Repr

/-- Why a command gets no meaning. -/
inductive Refusal where
  /-- Raised by exec for a row that has no meaning yet; safe, because nothing is then claimed of it. No row is left so. -/
  | notModelled (mnemonic : String)
deriving DecidableEq, Repr

/-! ## Buffers (Chapter 1) -/

/-- The five buffer states (R2). -/
inductive BufState where
  | free | held | queued | reading | draining
deriving DecidableEq, Repr

/-- The stage of a lease (R1, R78). -/
inductive Stage where
  | normal | warned
deriving DecidableEq, Repr

/-- A lease: the remaining time in ms and its stage (R1). -/
structure Lease where
  remaining : Word
  stage : Stage
deriving DecidableEq, Repr

/-- A role's port and, when the role has one, its lease (R1, R73). -/
structure Role where
  port : Port
  lease : Option Lease
deriving DecidableEq, Repr

/-- A buffer record (R1). Its state is computed from the other fields (BufRec.state), as R2 states; the holder lease stands
with the holder. -/
structure BufRec where
  generation : Gen
  holder : Option Role
  readers : List Role
  pending : PortMask
  channel : Option ChanIx
  origin : Option Port
  length : Nat
  tag : Word
  bulkCount : Nat
deriving DecidableEq, Repr

/-! ## Channels (Chapter 3) -/

inductive ChanKind where
  | unicast | fanout
deriving DecidableEq, Repr

inductive FullPolicy where
  | refuse | displaceOldest
deriving DecidableEq, Repr

inductive ArrivalNotice where
  | every | edge
deriving DecidableEq, Repr

/-- The fields that a channel has while OPEN or CLOSING (R43). -/
structure ChanSetup where
  kind : ChanKind
  destinations : PortMask
  sources : PortMask
  capacity : Nat
  policy : FullPolicy
  notice : ArrivalNotice
deriving DecidableEq, Repr

/-- The channel state with the fields present in it (R43, R45). -/
inductive ChanStatus where
  | closed
  | opened (u : ChanSetup)
  | closing (u : ChanSetup) (closer : Port)
deriving DecidableEq, Repr

/-- A channel record (R43); the head of the queue is first. -/
structure Chan where
  status : ChanStatus
  queue : List BufIx
  takeWaiters : PortMask
deriving DecidableEq, Repr

/-! ## Request Engines (Chapter 2) -/

/-- The known request codes (R169). -/
inductive ReqCode where
  | claim | release | adopt | renew | query | cancel
  | openChannel | closeChannel | post | take | channelStatus
  | setLease | map | unmap | fill | copy
  | attach | detach | quiesce | resume
  | setParam | setQuota | clearStatus
deriving DecidableEq, Repr

/-- The result codes (2.3, R169). -/
inductive ResultCode where
  | none | ok | badRequest | range | staleHandle | notHolder | badState | busyBuffer | noBuffer | quota
  | channelClosed | notSource | notDestination | queueFull | queueEmpty | timeout | cancelled | aborted
  | dataError | notPermitted | session
deriving DecidableEq, Repr

inductive EngineState where
  | idle | busy | waiting
deriving DecidableEq, Repr

/-- The current request with its flags (R21). -/
structure Request where
  code : ReqCode
  zero : Bool
  head : Bool
deriving DecidableEq, Repr

/-- A wait timer that has not expired: the remaining ms, or no limit (R21, R67). -/
inductive WaitTimer where
  | count (ms : Word)
  | noLimit
deriving DecidableEq, Repr

inductive BulkKind where
  | fill | copy | zeroFill
deriving DecidableEq, Repr

inductive BulkDirection where
  | ascending | descending
deriving DecidableEq, Repr

/-- A bulk operation's outcome, fixed when the mover stops (R105, R115). -/
inductive BulkOutcome where
  | ok | aborted | dataError
deriving DecidableEq, Repr

/-- The mover's phase, with the outcome present in STOPPED (R105). -/
inductive BulkPhase where
  | moving
  | stopped (o : BulkOutcome)
deriving DecidableEq, Repr

/-- A buffer with its generation at the start step, and the offset of the range in it (R105). -/
structure BulkRange where
  buffer : BufIx
  generation : Gen
  offset : Nat
deriving DecidableEq, Repr

/-- The bulk mover's progress record (R105). `readRun` holds the bytes a COPY burst has read and not yet written (R112). -/
structure Bulk where
  kind : BulkKind
  destination : BulkRange
  source : Option BulkRange
  count : Nat
  direction : BulkDirection
  patternEven : Byte
  patternOdd : Byte
  bytesDone : Nat
  abort : Bool
  phase : BulkPhase
  readRun : Option (List Byte)
deriving DecidableEq, Repr

/-- A close the engine drives: the channel, and the entries returned and discarded so far (R21, R60). -/
structure CloseProgress where
  channel : ChanIx
  returned : Nat
  discarded : Nat
deriving DecidableEq, Repr

/-- A Request Engine (R21) with its staging registers and the REQ read-back (R23). -/
structure Engine where
  state : EngineState
  request : Option Request
  operands : Option (Vector Word 6)
  result : ResultCode
  res : Vector Word 4
  timer : Option WaitTimer
  cancelMarker : Bool
  bulk : Option Bulk
  close : Option CloseProgress
  claimed : Option Word
  opd : Vector Word 6
  reqWord : Word
deriving DecidableEq, Repr

/-! ## Windows, stream and bus (Chapters 5, 7 and 11) -/

inductive WindowMode where
  | rw | ro
deriving DecidableEq, Repr

/-- The fields of a MAPPED or STALE window (R86); the buffer index is the one in the handle. -/
structure View where
  handle : Word
  mode : WindowMode
  length : Nat
deriving DecidableEq, Repr

/-- A window record (R86). -/
inductive Window where
  | unmapped
  | mapped (v : View)
  | stale (v : View)
deriving DecidableEq, Repr

inductive StreamDir where
  | read | write
deriving DecidableEq, Repr

/-- The stream state (R98). -/
structure Stream where
  select : WindowSel
  direction : StreamDir
  lengthPrefix : Bool
  pointer : Nat
  prefixDue : Bool
deriving DecidableEq, Repr

inductive ByteOrder where
  | little | big
deriving DecidableEq, Repr

inductive NoticeMode where
  | off | long | all
deriving DecidableEq, Repr

/-- The fields of PCFG (R155, R170). -/
structure PortConfig where
  byteOrder : ByteOrder
  queueEnable : Bool
  noticeMode : NoticeMode
  sessionChangeEnable : Bool
  refusedEnable : Bool
  windowFaultEnable : Bool
deriving DecidableEq, Repr

/-- What a window or stream access does; a read carries its strobe, a write its data lanes and byte enables. -/
inductive AccessKind where
  | windowRead (strobe : Strobe)
  | windowWrite (data : Word) (lanes : Lanes)
  | streamRead (strobe : Strobe)
  | streamWrite (data : Word) (lanes : Lanes)
deriving DecidableEq, Repr

/-- An access waits for its bank, or is a read that has been granted and holds the word it will answer. A write is finished at its grant
(R165). -/
inductive AccessPhase where
  | waiting
  | granted (data : Word)
deriving DecidableEq, Repr

/-- The bus access that the port's master holds open under /PWAIT (R91, R122): the window it goes through, the buffer and even
offset it was begun for, which are those it is presented for (R104; log 28), and whether a MAP has re-armed the stream since. -/
structure BusAccess where
  kind : AccessKind
  window : WindowSel
  buffer : BufIx
  offset : Nat
  rearmed : Bool
  phase : AccessPhase
deriving DecidableEq, Repr

/-- What a port's access path presents (R122). -/
inductive PathRequest where
  | windowRead | windowWrite | streamRead | streamWrite | fillBurst | copyRead | copyWrite
deriving DecidableEq, Repr

/-- The bank request of a PRESENTING access path: the bank, the row, and what it is for (R122). -/
structure BankRequest where
  bank : BankIx
  row : Nat
  what : PathRequest
deriving DecidableEq, Repr

/-! ## Notification Queue (Chapter 9) -/

/-- The record kinds (R149, R171). -/
inductive RecordKind where
  | arrival | complete | leaseWarn | reclaimed | returned | discarded | displaced | channelOpened | channelClosed
  | peerState | refreshMissed | dataError | paramChanged | overflow
deriving DecidableEq, Repr

/-- A record: kind, subject and value, the last two as NOTE1 and NOTE2 give them (R149, R171). -/
structure Record where
  kind : RecordKind
  subject : Word
  value : Word
deriving DecidableEq, Repr

/-- A Notification Queue (R148), oldest record first; the pop latch is absent in its EMPTY form. -/
structure NoteQueue where
  records : List Record
  latch : Option Record
  remaining : Nat
deriving DecidableEq, Repr

/-! ## Sessions and teardown (Chapter 8) -/

inductive SessionState where
  | detached | active | quiesced | resetting
deriving DecidableEq, Repr

/-- A Session Controller: session state, lease policy Lh, Lr and G, and the three change flags (R131). -/
structure Session where
  state : SessionState
  holdLease : Word
  readLease : Word
  grace : Word
  sessionChange : Bool
  refused : Bool
  windowFault : Bool
deriving DecidableEq, Repr

inductive TeardownPhase where
  | idle | fence | roles | channels | final
deriving DecidableEq, Repr

/-- A Teardown Unit's progress (R139). `inHandTakenOver` tells a channel in hand taken over from the engine at the fence step
from one that the search found, which R144 treats differently; it means nothing while no channel is in hand. -/
structure Teardown where
  phase : TeardownPhase
  nextBuffer : Nat
  nextChannel : Nat
  inHand : Option ChanIx
  inHandTakenOver : Bool
  endOwed : Bool
deriving DecidableEq, Repr

/-! ## One port -/

/-- Everything the device holds once for each port. -/
structure PortState where
  engine : Engine
  windowA : Window
  windowB : Window
  stream : Stream
  config : PortConfig
  path : Option BankRequest
  access : Option BusAccess
  notes : NoteQueue
  session : Session
  teardown : Teardown
  charge : Nat
  quota : Nat
  /-- /PRSTn is low. -/
  prstLow : Bool
  /-- The word the port's last read was answered with on PD15 to PD0. -/
  dataBus : Word
deriving DecidableEq, Repr

/-! ## Arbiters, Lease Monitor, array and refresh (Chapters 1, 4 and 7) -/

/-- The nine requesters of the Table Arbiter (R16). -/
inductive Requester where
  | re (p : Port)
  | tu (p : Port)
  | lm
deriving DecidableEq, Repr

/-- A position of the expiry list: a buffer and a role in it (R75). -/
structure Position where
  buffer : BufIx
  role : LeaseRole
deriving DecidableEq, Repr

/-- An expiry-list entry: the generation and, for a holder position, the holder as the role ran out (R75). -/
structure ExpiryEntry where
  generation : Gen
  holder : Option Port
deriving DecidableEq, Repr

/-- What a Bank Arbiter's current grant serves (R124). -/
inductive BankGrant where
  | port (p : Port)
  | refresh
deriving DecidableEq, Repr

/-- A Bank Arbiter (R124). -/
structure Arbiter where
  lastPort : Port
  current : Option BankGrant
deriving DecidableEq, Repr

/-- What the Refresh Engine holds for one bank (R127). -/
structure RefreshBank where
  rowPointer : Fin 128
  debt : Nat
  missed : Bool
deriving DecidableEq, Repr

/-- A stored byte with its parity bit (R119). -/
structure Stored where
  byte : Byte
  parity : Bool
deriving DecidableEq, Repr

/-- A row of the array: the µs ticks since its last refresh (R126, log 8), and which undefined contents its unlisted cells
hold (`epoch`, the model's own field, log 7). -/
structure RowState where
  age : Nat
  epoch : Nat
deriving DecidableEq, Repr

/-! ## The device -/

/-- The state of the device. -/
structure State where
  /-- /RESET is low. -/
  resetLow : Bool
  ports : Vector PortState 4
  buffers : Vector BufRec 256
  freeList : List BufIx
  claimWait : List Port
  channels : Vector Chan 16
  lastServed : Requester
  /-- The expiry list, by ascending position. -/
  expiry : List (Position × ExpiryEntry)
  sweep : Position
  lmOffer : Option Position
  /-- The cells written since their contents were last undefined, by strictly rising key. -/
  array : List (Nat × Stored)
  rows : Vector RowState 512
  arbiters : Vector Arbiter 4
  refresh : Vector RefreshBank 4
  intervalCounter : Nat
  usDivider : Nat
  msCounter : Nat
  timebaseDiv : Nat
  refreshInterval : Nat
  urgentDebt : Nat
  /-- The straps as sampled at the end of device reset. -/
  supen : Bool
  sup : Port
  /-- The model's own counter of draws of Config.sourceFreedFirst (log 17). -/
  freeDraws : Nat
  /-- The commands that wait, first in first out. -/
  pending : List Instr
deriving DecidableEq, Repr

/-! ## Reset values -/

/-- A buffer record after device reset (R1). -/
def BufRec.reset : BufRec :=
  { generation := 0, holder := none, readers := [], pending := 0, channel := none, origin := none, length := 0, tag := 0,
    bulkCount := 0 }

/-- A channel after device reset (R43). -/
def Chan.reset : Chan := { status := .closed, queue := [], takeWaiters := 0 }

/-- An engine after device reset (R22). -/
def Engine.reset : Engine :=
  { state := .idle, request := none, operands := none, result := .none, res := Vector.replicate 4 0, timer := none,
    cancelMarker := false, bulk := none, close := none, claimed := none, opd := Vector.replicate 6 0, reqWord := 0 }

/-- The stream after device reset and after the fence step (R98). -/
def Stream.reset : Stream :=
  { select := .a, direction := .read, lengthPrefix := false, pointer := 0, prefixDue := false }

/-- A queue after device reset and after the final step (R148). -/
def NoteQueue.reset : NoteQueue := { records := [], latch := none, remaining := 0 }

/-- PCFG after device reset (R95, R155). -/
def PortConfig.reset : PortConfig :=
  { byteOrder := .little, queueEnable := false, noticeMode := .off, sessionChangeEnable := false, refusedEnable := false,
    windowFaultEnable := false }

/-- A Session Controller after device reset (R131). -/
def Session.reset : Session :=
  { state := .detached, holdLease := 0, readLease := 0, grace := 0, sessionChange := false, refused := false,
    windowFault := false }

/-- A Teardown Unit after device reset and after the final step (R139, R145). -/
def Teardown.reset : Teardown :=
  { phase := .idle, nextBuffer := 0, nextChannel := 0, inHand := none, inHandTakenOver := false, endOwed := false }

/-- A port after device reset (R10, R12, R22, R86, R98, R123, R131, R139, R148). The spec gives no value for the level of
/PRSTn or the idle data lines: high and 0 (log 9). -/
def PortState.reset : PortState :=
  { engine := Engine.reset, windowA := .unmapped, windowB := .unmapped, stream := Stream.reset, config := PortConfig.reset,
    path := none, access := none, notes := NoteQueue.reset, session := Session.reset, teardown := Teardown.reset,
    charge := 0, quota := 64, prstLow := false, dataBus := 0 }

/-- The device right after reset: /RESET has risen, every port is DETACHED, all 256 buffers are free in index order (R1, R7,
R16, R43, R75, R124, R127, R158 to R160). The straps read low and 0, which the spec leaves to the board (log 9). -/
def State.reset : State :=
  { resetLow := false
    ports := Vector.replicate 4 PortState.reset
    buffers := Vector.replicate 256 BufRec.reset
    freeList := List.finRange 256
    claimWait := []
    channels := Vector.replicate 16 Chan.reset
    lastServed := .lm
    expiry := []
    sweep := { buffer := 255, role := .reader 3 }
    lmOffer := none
    array := []
    rows := Vector.replicate 512 { age := 0, epoch := 0 }
    arbiters := Vector.replicate 4 { lastPort := 3, current := none }
    refresh := Vector.replicate 4 { rowPointer := 0, debt := 0, missed := false }
    intervalCounter := 0
    usDivider := 0
    msCounter := 0
    timebaseDiv := 100
    refreshInterval := 15
    urgentDebt := 6
    supen := false
    sup := 0
    freeDraws := 0
    pending := [] }

end Sys2Proof.Machine
end

