-- ==== Sys2Proof/Machine/Operands.lean ====
section
/-! DEFINITION. The words software sees: handles, request and result codes, records, operand fields, lanes (Chapter 11). -/

namespace Sys2Proof.Machine

/-! ## Port masks -/

/-- The ports in order P0 to P3. -/
def allPorts : List Port := [0, 1, 2, 3]

/-- The mask holds the port. -/
def maskHas (m : PortMask) (p : Port) : Bool := m.getLsbD p.val

/-- The mask with the port added. -/
def maskInsert (m : PortMask) (p : Port) : PortMask := m ||| (1#4 <<< p.val)

/-- The mask with the port taken out. -/
def maskErase (m : PortMask) (p : Port) : PortMask := m &&& ~~~(1#4 <<< p.val)

/-- The ports of a mask, in port order. -/
def maskPorts (m : PortMask) : List Port := allPorts.filter (maskHas m)

/-- The mask of the ports of a list. -/
def maskOf (ps : List Port) : PortMask := ps.foldl maskInsert 0

/-! ## Words -/

/-- The low byte of a word, bits 7 to 0. -/
def lowByte (w : Word) : Byte := w.extractLsb' 0 8

/-- The high byte of a word, bits 15 to 8. -/
def highByte (w : Word) : Byte := w.extractLsb' 8 8

/-- The word of a high and a low byte. -/
def wordOf (hi lo : Byte) : Word := hi ++ lo

/-- A register write changes the lanes that are enabled (R23, R166). -/
def writeLanes (old new : Word) (l : Lanes) : Word :=
  wordOf (if l.hi then highByte new else highByte old) (if l.lo then lowByte new else lowByte old)

/-- One bit as a word with that bit at position `i`. -/
def bitAt (b : Bool) (i : Nat) : Word := if b then 1#16 <<< i else 0

/-- A number placed at bit `i` of a word. -/
def fieldAt (n i : Nat) : Word := BitVec.ofNat 16 n <<< i

/-! ## Handles (R5, R168) -/

/-- The handle of a buffer at a generation: valid marker, generation, index. -/
def handleOf (g : Gen) (b : BufIx) : Word := 0x8000#16 ||| fieldAt g.toNat 8 ||| BitVec.ofNat 16 b.val

/-- The valid marker, bit 15. -/
def handleValid (h : Word) : Bool := h.getLsbD 15

/-- The generation, bits 14 to 8. -/
def handleGen (h : Word) : Gen := h.extractLsb' 8 7

/-- The buffer index, bits 7 to 0. -/
def handleIx (h : Word) : BufIx := Fin.ofNat 256 h.toNat

/-! ## Request and result codes (R169) -/

/-- The request code in bits 7 to 0 of REQ; the codes not listed are unknown. -/
def reqCodeOf (c : Byte) : Option ReqCode :=
  match c.toNat with
  | 0x01 => some .claim
  | 0x02 => some .release
  | 0x03 => some .adopt
  | 0x04 => some .renew
  | 0x05 => some .query
  | 0x06 => some .cancel
  | 0x10 => some .openChannel
  | 0x11 => some .closeChannel
  | 0x12 => some .post
  | 0x13 => some .take
  | 0x14 => some .channelStatus
  | 0x20 => some .setLease
  | 0x21 => some .map
  | 0x22 => some .unmap
  | 0x28 => some .fill
  | 0x29 => some .copy
  | 0x30 => some .attach
  | 0x31 => some .detach
  | 0x32 => some .quiesce
  | 0x33 => some .resume
  | 0x38 => some .setParam
  | 0x39 => some .setQuota
  | 0x3A => some .clearStatus
  | _ => none

/-- The code of a known request (R169). -/
def reqCodeByte : ReqCode → Byte
  | .claim => 0x01
  | .release => 0x02
  | .adopt => 0x03
  | .renew => 0x04
  | .query => 0x05
  | .cancel => 0x06
  | .openChannel => 0x10
  | .closeChannel => 0x11
  | .post => 0x12
  | .take => 0x13
  | .channelStatus => 0x14
  | .setLease => 0x20
  | .map => 0x21
  | .unmap => 0x22
  | .fill => 0x28
  | .copy => 0x29
  | .attach => 0x30
  | .detach => 0x31
  | .quiesce => 0x32
  | .resume => 0x33
  | .setParam => 0x38
  | .setQuota => 0x39
  | .clearStatus => 0x3A

/-- The word a master writes to REQ for a request with its flags: ZERO in bit 8, HEAD in bit 9 (R169). -/
def reqWordOf (c : ReqCode) (zero head : Bool) : Word := wordOf 0 (reqCodeByte c) ||| bitAt zero 8 ||| bitAt head 9

/-- The flag ZERO of a REQ word. -/
def reqZero (w : Word) : Bool := w.getLsbD 8

/-- The flag HEAD of a REQ word. -/
def reqHead (w : Word) : Bool := w.getLsbD 9

/-- What REQ reads back of a written word: bits 15 to 10 read 0 (R169). -/
def reqReadBack (w : Word) : Word := w &&& 0x03FF#16

/-- The value of a result code (R169). -/
def resultValue : ResultCode → Nat
  | .none => 0
  | .ok => 1
  | .badRequest => 2
  | .range => 3
  | .staleHandle => 4
  | .notHolder => 5
  | .badState => 6
  | .busyBuffer => 7
  | .noBuffer => 8
  | .quota => 9
  | .channelClosed => 10
  | .notSource => 11
  | .notDestination => 12
  | .queueFull => 13
  | .queueEmpty => 14
  | .timeout => 15
  | .cancelled => 16
  | .aborted => 17
  | .dataError => 18
  | .notPermitted => 19
  | .session => 20

/-- The engine state in RSP (R169). -/
def engineStateValue : EngineState → Nat
  | .idle => 0
  | .busy => 1
  | .waiting => 2

/-- The session state in PSTAT and in PEER_STATE records (R170). -/
def sessionValue : SessionState → Nat
  | .detached => 0
  | .active => 1
  | .quiesced => 2
  | .resetting => 3

/-- The kind value in NOTE0; 0 is EMPTY (R171). -/
def recordKindValue : RecordKind → Nat
  | .arrival => 1
  | .complete => 2
  | .leaseWarn => 3
  | .reclaimed => 4
  | .returned => 5
  | .discarded => 6
  | .displaced => 7
  | .channelOpened => 8
  | .channelClosed => 9
  | .peerState => 10
  | .refreshMissed => 11
  | .dataError => 12
  | .paramChanged => 13
  | .overflow => 14

/-- The role in LEASE_WARN and RECLAIMED records (R171). -/
def roleValue : LeaseRole → Nat
  | .holder => 0
  | .reader _ => 1

/-- The buffer state in QUERY's RES0 (R168). -/
def bufStateValue : BufState → Nat
  | .free => 0
  | .held => 1
  | .queued => 2
  | .reading => 3
  | .draining => 4

/-- A record made of a kind and two numbers. -/
def mkRecord (k : RecordKind) (subject value : Nat) : Record :=
  { kind := k, subject := BitVec.ofNat 16 subject, value := BitVec.ofNat 16 value }

/-! ## Operand fields -/

/-- A channel number operand, a whole 16-bit number; 16 and above are out of range (R169). -/
def channelOperand (w : Word) : Option ChanIx := if h : w.toNat < 16 then some ⟨w.toNat, h⟩ else none

/-- A port number operand (R162). -/
def portOperand (w : Word) : Option Port := if h : w.toNat < 4 then some ⟨w.toNat, h⟩ else none

/-- A window select in bit 0 (R169). -/
def windowOperand (w : Word) : WindowSel := if w.getLsbD 0 then .b else .a

/-- The fields of an OPEN_CHANNEL from OPD1 to OPD4 (R46, R169). -/
def setupOperand (o : Vector Word 6) : ChanSetup :=
  { kind := if o[1].getLsbD 8 then .fanout else .unicast
    destinations := o[1].extractLsb' 0 4
    sources := o[2].extractLsb' 0 4
    capacity := o[3].toNat
    policy := if o[4].getLsbD 0 then .displaceOldest else .refuse
    notice := if o[4].getLsbD 1 then .edge else .every }

/-- The wait timer of a latched timeout (R67). -/
def timerOf (timeout : Word) : WaitTimer := if timeout = 0xFFFF#16 then .noLimit else .count timeout

/-- A lease that begins with a policy value: none when the value is 0 (R73). -/
def leaseOf (policy : Word) : Option Lease := if policy = 0 then none else some { remaining := policy, stage := .normal }

/-! ## Lanes and byte order (R94, R95) -/

/-- The word on the lanes for the bytes at the even offset and the odd offset after it. -/
def lanesWord (o : ByteOrder) (even odd : Byte) : Word :=
  match o with
  | .little => wordOf odd even
  | .big => wordOf even odd

/-- The byte a data word carries for the even offset. -/
def evenByte (o : ByteOrder) (w : Word) : Byte :=
  match o with
  | .little => lowByte w
  | .big => highByte w

/-- The byte a data word carries for the odd offset. -/
def oddByte (o : ByteOrder) (w : Word) : Byte :=
  match o with
  | .little => highByte w
  | .big => lowByte w

/-- Whether the enabled lanes carry the byte at the even offset. -/
def evenEnabled (o : ByteOrder) (l : Lanes) : Bool :=
  match o with
  | .little => l.lo
  | .big => l.hi

/-- Whether the enabled lanes carry the byte at the odd offset. -/
def oddEnabled (o : ByteOrder) (l : Lanes) : Bool :=
  match o with
  | .little => l.hi
  | .big => l.lo

/-! ## Stream settings (R99, R172) -/

/-- The stream state a write of the settings sets: the pointer's lowest bit is cleared and a value above 512 becomes 512; prefix
due is set when the length prefix is ON and the direction is READ. -/
def streamOfSettings (w : Word) : Stream :=
  { select := if w.getLsbD 0 then .b else .a
    direction := if w.getLsbD 1 then .write else .read
    lengthPrefix := w.getLsbD 2
    pointer := min 512 (2 * ((w.extractLsb' 4 10).toNat / 2))
    prefixDue := w.getLsbD 2 && !w.getLsbD 1 }

/-! ## PCFG (R170) -/

/-- The completion-notice field; 3 is taken as ALL. -/
def noticeOfField (n : Nat) : NoticeMode :=
  match n with
  | 0 => .off
  | 1 => .long
  | _ => .all

/-- A PCFG write changes only the fields on the enabled lanes. -/
def configWrite (c : PortConfig) (w : Word) (l : Lanes) : PortConfig :=
  { byteOrder := if l.lo then (if w.getLsbD 0 then .big else .little) else c.byteOrder
    queueEnable := if l.lo then w.getLsbD 1 else c.queueEnable
    noticeMode := if l.lo then noticeOfField (w.extractLsb' 2 2).toNat else c.noticeMode
    sessionChangeEnable := if l.hi then w.getLsbD 8 else c.sessionChangeEnable
    refusedEnable := if l.hi then w.getLsbD 9 else c.refusedEnable
    windowFaultEnable := if l.hi then w.getLsbD 10 else c.windowFaultEnable }

end Sys2Proof.Machine
end

