-- ==== Sys2Proof/Machine/Ops.lean ====
section
/-! DEFINITION. Named operations over the state: accessors, the memory array, notification queues, and the end of a request. -/

namespace Sys2Proof.Machine

/-! ## Accessors -/

def State.port (s : State) (p : Port) : PortState := s.ports.get p
def State.setPort (s : State) (p : Port) (x : PortState) : State := { s with ports := s.ports.set p.val x p.isLt }
def State.modPort (s : State) (p : Port) (f : PortState → PortState) : State := s.setPort p (f (s.port p))

def State.buf (s : State) (b : BufIx) : BufRec := s.buffers.get b
def State.setBuf (s : State) (b : BufIx) (r : BufRec) : State := { s with buffers := s.buffers.set b.val r b.isLt }
def State.modBuf (s : State) (b : BufIx) (f : BufRec → BufRec) : State := s.setBuf b (f (s.buf b))

def State.chan (s : State) (c : ChanIx) : Chan := s.channels.get c
def State.setChan (s : State) (c : ChanIx) (x : Chan) : State := { s with channels := s.channels.set c.val x c.isLt }
def State.modChan (s : State) (c : ChanIx) (f : Chan → Chan) : State := s.setChan c (f (s.chan c))

def State.arbiter (s : State) (k : BankIx) : Arbiter := s.arbiters.get k
def State.modArbiter (s : State) (k : BankIx) (f : Arbiter → Arbiter) : State :=
  { s with arbiters := s.arbiters.set k.val (f (s.arbiter k)) k.isLt }

def State.bankRefresh (s : State) (k : BankIx) : RefreshBank := s.refresh.get k
def State.modRefresh (s : State) (k : BankIx) (f : RefreshBank → RefreshBank) : State :=
  { s with refresh := s.refresh.set k.val (f (s.bankRefresh k)) k.isLt }

def State.modEngine (s : State) (p : Port) (f : Engine → Engine) : State :=
  s.modPort p fun x => { x with engine := f x.engine }
def State.modSession (s : State) (p : Port) (f : Session → Session) : State :=
  s.modPort p fun x => { x with session := f x.session }
def State.modTeardown (s : State) (p : Port) (f : Teardown → Teardown) : State :=
  s.modPort p fun x => { x with teardown := f x.teardown }
def State.setData (s : State) (p : Port) (w : Word) : State := s.modPort p fun x => { x with dataBus := w }

/-- The Free List, the Claim Wait List, the requester served last, and the draws of the free order, replaced. -/
def State.setFreeList (s : State) (l : List BufIx) : State := { s with freeList := l }
def State.setClaimWait (s : State) (l : List Port) : State := { s with claimWait := l }
def State.served (s : State) (r : Requester) : State := { s with lastServed := r }
def State.setFreeDraws (s : State) (n : Nat) : State := { s with freeDraws := n }

/-- One of a port's windows. -/
def PortState.window (x : PortState) : WindowSel → Window
  | .a => x.windowA
  | .b => x.windowB

/-- The port with one window replaced. -/
def PortState.setWindow (x : PortState) (sel : WindowSel) (w : Window) : PortState :=
  match sel with
  | .a => { x with windowA := w }
  | .b => { x with windowB := w }

/-- All buffers, in ascending index. -/
def allBuffers : List BufIx := List.finRange 256

/-- All channels, in ascending number. -/
def allChannels : List ChanIx := List.finRange 16

/-- The four banks, in ascending number. -/
def allBanks : List BankIx := [0, 1, 2, 3]

/-! ## Buffer and channel records -/

/-- The buffer state follows from the record as R2's table shows. -/
def BufRec.state (r : BufRec) : BufState :=
  if r.holder.isSome then .held
  else if !r.readers.isEmpty then .reading
  else if r.pending ≠ 0 then .queued
  else if r.bulkCount ≠ 0 then .draining
  else .free

/-- The port holds the buffer. -/
def BufRec.heldBy (r : BufRec) (p : Port) : Bool := r.holder.any fun h => h.port == p

/-- The readers list holds an entry for the port. -/
def BufRec.readBy (r : BufRec) (p : Port) : Bool := r.readers.any fun e => e.port == p

/-- The port has a role in the buffer. -/
def BufRec.roleOf (r : BufRec) (p : Port) : Bool := r.heldBy p || r.readBy p

/-- The buffer's handle with its present generation (R5). -/
def State.handle (s : State) (b : BufIx) : Word := handleOf (s.buf b).generation b

/-- The handle check of R5: RANGE when malformed, STALE_HANDLE when the generation differs. -/
def State.checkHandle (s : State) (h : Word) : Option ResultCode :=
  if !handleValid h then some .range
  else if handleGen h ≠ (s.buf (handleIx h)).generation then some .staleHandle
  else none

/-- The fields of an OPEN or CLOSING channel (R43). -/
def Chan.setup (c : Chan) : Option ChanSetup :=
  match c.status with
  | .closed => none
  | .opened u => some u
  | .closing u _ => some u

/-- The closer of a CLOSING channel. -/
def Chan.closer (c : Chan) : Option Port :=
  match c.status with
  | .closing _ q => some q
  | _ => none

/-- The destinations of a channel; empty when CLOSED. -/
def Chan.destinations (c : Chan) : PortMask := (c.setup.map ChanSetup.destinations).getD 0

/-! ## Sessions and supervision -/

def State.sessionState (s : State) (p : Port) : SessionState := (s.port p).session.state

/-- A port is attached when its session state is ACTIVE or QUIESCED (R131). -/
def State.attached (s : State) (p : Port) : Bool := s.sessionState p == .active || s.sessionState p == .quiesced

/-- The port is the supervising port (R158). -/
def State.supervises (s : State) (p : Port) : Bool := s.supen && s.sup == p

/-- The port's charge is below its quota (R11). -/
def State.belowQuota (s : State) (p : Port) : Bool := (s.port p).charge < (s.port p).quota

def State.raiseCharge (s : State) (p : Port) : State := s.modPort p fun x => { x with charge := x.charge + 1 }
def State.lowerCharge (s : State) (p : Port) : State := s.modPort p fun x => { x with charge := x.charge - 1 }

/-! ## The Memory Array (Chapter 7) -/

/-- The bank of a buffer (R118). -/
def bankOf (b : BufIx) : BankIx := Fin.ofNat 4 b.val

/-- The row of an offset of a buffer, in the buffer's bank (R118). Offsets are 0 to 511; one beyond is taken modulo 512 (log 19). -/
def rowOf (b : BufIx) (o : Nat) : Nat := 2 * (b.val / 4) + o / 256 % 2

/-- The key of a byte of a buffer in the array: bank, row, column (R118). -/
def cellKey (b : BufIx) (o : Nat) : Nat := (bankOf b).val * 32768 + rowOf b o * 256 + o % 256

/-- The entry listed at a key. -/
def arrayLookup : List (Nat × Stored) → Nat → Option Stored
  | [], _ => none
  | (k, v) :: rest, a => if k = a then some v else if a < k then none else arrayLookup rest a

/-- The list with a key's entry set, keys rising. -/
def arrayInsert : List (Nat × Stored) → Nat → Stored → List (Nat × Stored)
  | [], a, v => [(a, v)]
  | (k, w) :: rest, a, v =>
    if a < k then (a, v) :: (k, w) :: rest
    else if a = k then (a, v) :: rest
    else (k, w) :: arrayInsert rest a v

/-- The canonical form of the array: keys strictly rising and inside the array (R118). -/
def arrayWf : List (Nat × Stored) → Bool
  | [] => true
  | [(k, _)] => k < 131072
  | (k, _) :: (k', v') :: rest => k < k' && arrayWf ((k', v') :: rest)

/-- The odd parity bit of a byte: the nine bits together hold an odd number of ones (R119). -/
def parityBit (x : Byte) : Bool :=
  !(x.getLsbD 0 ^^ x.getLsbD 1 ^^ x.getLsbD 2 ^^ x.getLsbD 3 ^^ x.getLsbD 4 ^^ x.getLsbD 5 ^^ x.getLsbD 6 ^^ x.getLsbD 7)

/-- A byte stored with fresh parity (R119). -/
def freshByte (x : Byte) : Stored := { byte := x, parity := parityBit x }

/-- A stored byte has a parity error (R120). -/
def Stored.error (c : Stored) : Bool := c.parity != parityBit c.byte

/-- The row of an array key, counted over all banks. -/
def rowOfKey (a : Nat) : Fin 512 := Fin.ofNat 512 (a / 256)

/-- The byte and parity bit stored at a key: as last written, or the free value of the row's undefined contents (R121; log 7). -/
def State.cell (s : State) (a : Nat) : Stored :=
  match arrayLookup s.array a with
  | some c => c
  | none =>
    { byte := Config.undefinedByte (s.rows.get (rowOfKey a)).epoch a
      parity := Config.undefinedParity (s.rows.get (rowOfKey a)).epoch a }

/-- The byte and parity bit of a buffer at an offset. -/
def State.bufByte (s : State) (b : BufIx) (o : Nat) : Stored := s.cell (cellKey b o)

/-- A byte of a buffer written with fresh parity (R119). -/
def State.writeByte (s : State) (b : BufIx) (o : Nat) (x : Byte) : State :=
  { s with array := arrayInsert s.array (cellKey b o) (freshByte x) }

/-- A run of bytes written from an offset upward. -/
def State.writeRun (s : State) (b : BufIx) (o : Nat) : List Byte → State
  | [] => s
  | x :: xs => (s.writeByte b o x).writeRun b (o + 1) xs

/-- The run of `n` stored bytes from an offset upward. -/
def State.readRun (s : State) (b : BufIx) (o n : Nat) : List Stored := (List.range n).map fun i => s.bufByte b (o + i)

/-- The rows' contents become undefined afresh: their listed cells are dropped and their epochs advance (R121, R130). -/
def State.loseRows (s : State) (lost : RowState → Bool) : State :=
  { s with
    array := s.array.filter fun e => !lost (s.rows.get (rowOfKey e.1))
    rows := s.rows.map fun r => if lost r then { r with epoch := r.epoch + 1 } else r }

/-- The whole array becomes undefined (R121). -/
def State.loseArray (s : State) : State :=
  { s with array := [], rows := s.rows.map fun r => { age := 0, epoch := r.epoch + 1 } }

/-! ## Notification Queues (R150, R151) -/

/-- Two ARRIVAL records of one channel. -/
def Record.sameArrival (r x : Record) : Bool := r.kind == .arrival && x.kind == .arrival && x.subject == r.subject

/-- The standing ARRIVAL with the new one's count added, up to 255 (R151). -/
def Record.merge (r x : Record) : Record := { x with value := BitVec.ofNat 16 (min 255 (x.value.toNat + r.value.toNat)) }

/-- A record handed to a queue: merged, kept, replaced by OVERFLOW, or dropped (R150 cases 2 to 5). -/
def NoteQueue.hand (q : NoteQueue) (r : Record) : NoteQueue :=
  if q.records.any r.sameArrival then
    { q with records := q.records.map fun x => if r.sameArrival x then r.merge x else x }
  else if q.records.any fun x => x.kind == .overflow then q
  else if q.records.length < 15 then { q with records := q.records ++ [r] }
  else if q.records.length = 15 then { q with records := q.records ++ [mkRecord .overflow 0 0] }
  else q

/-- A record handed to a port; a DETACHED port keeps none (R150 case 1). -/
def State.place (s : State) (p : Port) (r : Record) : State :=
  if s.sessionState p = .detached then s else s.modPort p fun x => { x with notes := x.notes.hand r }

/-- A record handed to each port of a list, in its order. -/
def State.placeAll (s : State) (ps : List Port) (r : Record) : State := ps.foldl (fun t p => t.place p r) s

/-- The attached ports other than one, in port order. -/
def State.attachedOthers (s : State) (p : Port) : List Port := allPorts.filter fun q => q != p && s.attached q

/-- The attached ports, in port order. -/
def State.attachedPorts (s : State) : List Port := allPorts.filter s.attached

/-- PEER_STATE to each other attached port (R136). -/
def State.placePeerState (s : State) (p : Port) (v : SessionState) : State :=
  s.placeAll (s.attachedOthers p) (mkRecord .peerState p.val (sessionValue v))

/-! ## Work: a state with the COMPLETE records it owes

A table operation places its COMPLETE records after every other record for the same queue (R32, R55), so they are collected and
placed at its end. -/

/-- A state, and the COMPLETE records owed at the end of the operation, in order. -/
structure Work where
  state : State
  owed : List (Port × Record)
deriving DecidableEq, Repr

def Work.start (s : State) : Work := { state := s, owed := [] }
def Work.map (w : Work) (f : State → State) : Work := { w with state := f w.state }

/-- The end of the operation: the owed records are placed. -/
def Work.finish (w : Work) : State := w.owed.foldl (fun s n => s.place n.1 n.2) w.state

/-- Result words. -/
def res4 (a b c d : Word) : Vector Word 4 := #v[a, b, c, d]
def res0 : Vector Word 4 := Vector.replicate 4 0
def res1 (a : Word) : Vector Word 4 := res4 a 0 0 0

/-- An engine that has completed its request: IDLE with the result latched; everything it held for the request is gone (R21,
R30). -/
def Engine.completed (e : Engine) (c : ResultCode) (r : Vector Word 4) : Engine :=
  { e with
    state := .idle, request := none, operands := none, result := c, res := r, timer := none, cancelMarker := false,
    bulk := none, close := none, claimed := none }

/-- The completion-notice mode selects the completion (R32): `long` when the request waited or passed a start step. -/
def noticeDue (m : NoticeMode) (long : Bool) : Bool :=
  match m with
  | .off => false
  | .long => long
  | .all => true

/-- The COMPLETE record of the port's request: subject the request code, value the result code (R32). -/
def completeRecord (e : Engine) (c : ResultCode) : Record := mkRecord .complete (lowByte e.reqWord).toNat (resultValue c)

/-- The port's request completes (R30 to R32). -/
def Work.complete (w : Work) (p : Port) (c : ResultCode) (r : Vector Word 4) (long : Bool) : Work :=
  let x := w.state.port p
  { state := w.state.modEngine p fun e => e.completed c r
    owed := if noticeDue x.config.noticeMode long then w.owed ++ [(p, completeRecord x.engine c)] else w.owed }

/-- A refused request completes with RES0 to RES3 at 0 (R31). -/
def Work.refuse (w : Work) (p : Port) (c : ResultCode) : Work := w.complete p c res0 false

/-- An operand word of the port's request, as latched at the take (R24). -/
def State.operand (s : State) (p : Port) (i : Fin 6) : Word := ((s.port p).engine.operands.map fun o => o.get i).getD 0

/-- The latched operands of the port's request. -/
def State.operands (s : State) (p : Port) : Vector Word 6 := (s.port p).engine.operands.getD (Vector.replicate 6 0)

/-! ## Windows that table operations change (R90) -/

/-- The window maps the buffer (R86). -/
def Window.maps (w : Window) (b : BufIx) : Bool :=
  match w with
  | .mapped v => handleIx v.handle == b
  | _ => false

/-- A window that maps the buffer becomes UNMAPPED (R90). -/
def Window.unmapOf (w : Window) (b : BufIx) : Window := if w.maps b then .unmapped else w

/-- A window that maps the buffer becomes STALE and keeps its fields (R90). -/
def Window.staleOf (w : Window) (b : BufIx) : Window :=
  match w with
  | .mapped v => if handleIx v.handle = b then .stale v else .mapped v
  | x => x

/-- RELEASE and POST unmap the port's windows of the buffer (R39, R40, R49). -/
def State.unmapWindows (s : State) (p : Port) (b : BufIx) : State :=
  s.modPort p fun x => { x with windowA := x.windowA.unmapOf b, windowB := x.windowB.unmapOf b }

/-- A reclaim makes the port's windows of the buffer STALE (R80, R81). -/
def State.staleWindows (s : State) (p : Port) (b : BufIx) : State :=
  s.modPort p fun x => { x with windowA := x.windowA.staleOf b, windowB := x.windowB.staleOf b }

/-- The abort mark of the port's bulk operation in flight is set, if there is one (R113). -/
def State.markAbort (s : State) (p : Port) : State :=
  s.modEngine p fun e => { e with bulk := e.bulk.map fun m => { m with abort := true } }

end Sys2Proof.Machine
end

