-- ==== Sys2Proof/Machine/Flags.lean ====
section
/-! DEFINITION. The port's change flags, and the output pins as functions of the state: PDREQ, /PIRQ, /PWAIT. -/

namespace Sys2Proof.Machine

/-- WINDOW_FAULT is set (R147). -/
def State.setWindowFault (s : State) (p : Port) : State := s.modSession p fun x => { x with windowFault := true }

/-- REFUSED is set (R147). -/
def State.setRefused (s : State) (p : Port) : State := s.modSession p fun x => { x with refused := true }

/-- SESSION_CHANGE is set (R147). -/
def State.setSessionChange (s : State) (p : Port) : State := s.modSession p fun x => { x with sessionChange := true }

/-- The change flags after a write of PSTAT: a 1 on the high lane clears its flag (R147, R170). -/
def Session.statusWrite (x : Session) (w : Word) (l : Lanes) : Session :=
  { x with
    sessionChange := x.sessionChange && !(l.hi && w.getLsbD 8)
    refused := x.refused && !(l.hi && w.getLsbD 9)
    windowFault := x.windowFault && !(l.hi && w.getLsbD 10) }

/-! ## The stream's end and PDREQ -/

/-- The window the stream works through. -/
def PortState.streamWindow (x : PortState) : Window := x.window x.stream.select

/-- The stream's end (R98): for READ the selected window's latched length rounded up to an even value; for WRITE 512; 0 while the
selected window is UNMAPPED. -/
def PortState.streamEnd (x : PortState) : Nat :=
  match x.streamWindow with
  | .unmapped => 0
  | .mapped v | .stale v => if x.stream.direction = .read then 2 * ((v.length + 1) / 2) else 512

/-- The stream has a word to move (R103 condition 3). -/
def PortState.streamReady (x : PortState) : Bool :=
  match x.stream.direction with
  | .read => x.stream.prefixDue || x.stream.pointer < x.streamEnd
  | .write => x.stream.pointer < 512

/-- PDREQ is asserted (R103). It is deasserted while /RESET is low (R167). -/
def State.pdreq (s : State) (p : Port) : Bool :=
  let x := s.port p
  !s.resetLow && !x.prstLow &&
    match x.streamWindow with
    | .mapped v => (x.stream.direction == .read || v.mode == .rw) && x.streamReady
    | _ => false

/-! ## /PIRQ and /PWAIT -/

/-- A change flag is set and its enable is set (R156). -/
def PortState.flagInterrupt (x : PortState) : Bool :=
  (x.session.sessionChange && x.config.sessionChangeEnable) ||
    (x.session.refused && x.config.refusedEnable) ||
    (x.session.windowFault && x.config.windowFaultEnable)

/-- /PIRQ is asserted (R156). It is deasserted while /RESET is low (R167). -/
def State.pirq (s : State) (p : Port) : Bool :=
  let x := s.port p
  !s.resetLow && !x.prstLow && ((!x.notes.records.isEmpty && x.config.queueEnable) || x.flagInterrupt)

/-- /PWAIT holds the bus: a window or stream read has not been carried out, or a write has not been accepted at its bank grant (R91,
R165). -/
def State.pwait (s : State) (p : Port) : Bool := (s.port p).access.isSome

end Sys2Proof.Machine
end

