-- ==== Sys2Proof/Machine/Pool.lean ====
section
/-! DEFINITION. The procedures several table operations share: handing out and freeing buffers, the last-use rule, delivery,
services, reclaim, and disposal of channel entries (Chapters 1, 3 and 4). -/

namespace Sys2Proof.Machine

/-! ## Handing out buffers -/

/-- The buffer becomes HELD by the port, with length 0, tag 0 and no origin, and a lease by the port's policy; the charge rises
by one (R8 step 3, R37, R73). -/
def State.handOut (s : State) (p : Port) (b : BufIx) : State :=
  (s.modBuf b fun r =>
    { r with
      holder := some { port := p, lease := leaseOf (s.port p).session.holdLease }, length := 0, tag := 0,
      origin := none }).raiseCharge p

/-- The port's engine runs a CLAIM with the flag ZERO. -/
def Engine.claimsZero (e : Engine) : Bool := e.request.any fun r => r.code == .claim && r.zero

/-- The CLAIM of the port has its buffer (R8 step 3, R37): without ZERO it completes OK with the handle; with ZERO the engine keeps
the handle, ends any wait and is BUSY until the zero fill ends. -/
def Work.claimGiven (w : Work) (p : Port) (b : BufIx) (long : Bool) : Work :=
  if (w.state.port p).engine.claimsZero then
    w.map fun s => s.modEngine p fun e =>
      { e with state := .busy, claimed := some (s.handle b), timer := none, cancelMarker := false }
  else w.complete p .ok (res1 (w.state.handle b)) long

/-- A claim waiter leaves the Claim Wait List and gets the buffer (R8 step 3, R9). -/
def Work.serveClaim (w : Work) (p : Port) (b : BufIx) : Work :=
  (w.map fun s => (s.handOut p b).setClaimWait (s.claimWait.erase p)).claimGiven p b true

/-- The record of a buffer that enters FREE (R8 steps 1 and 2). -/
def BufRec.freed (r : BufRec) : BufRec :=
  { r with
    generation := r.generation + 1, holder := none, readers := [], pending := 0, channel := none, origin := none }

/-- A buffer enters FREE (R8): its record is cleared with the next generation, and it is handed to the oldest claim waiter below
its quota, or joins the Free List at the tail. -/
def Work.enterFree (w : Work) (b : BufIx) : Work :=
  let w' := w.map fun s => s.modBuf b BufRec.freed
  match w'.state.claimWait.find? w'.state.belowQuota with
  | some q => w'.serveClaim q b
  | none => w'.map fun s => s.setFreeList (s.freeList ++ [b])

/-- Claim service (R9): each claim waiter below its quota, oldest first, gets the head of the Free List while it lasts. -/
def Work.claimService (w : Work) : Work :=
  w.state.claimWait.foldl
    (fun w q =>
      if w.state.belowQuota q then
        match w.state.freeList with
        | [] => w
        | b :: rest => (w.map fun s => s.setFreeList rest).serveClaim q b
      else w)
    w

/-- The record has no holder, no readers and no pending destination. -/
def BufRec.unused (r : BufRec) : Bool := r.holder.isNone && r.readers.isEmpty && r.pending == 0

/-- The last-use rule (R3): a buffer left with no role and nothing pending enters FREE when its bulk count is 0. In every other
case its state already follows from the record: QUEUED, READING or DRAINING. -/
def Work.lastUse (w : Work) (b : BufIx) : Work :=
  if (w.state.buf b).unused && (w.state.buf b).bulkCount == 0 then w.enterFree b else w

/-! ## Giving reader roles -/

/-- The entry leaves its channel's queue, and the buffer's channel field becomes absent (R44). -/
def State.leaveQueue (s : State) (c : ChanIx) (b : BufIx) : State :=
  (s.modChan c fun x => { x with queue := x.queue.erase b }).modBuf b fun r => { r with channel := none }

/-- The port gets a reader role in the buffer, with a lease by its policy, and leaves the pending set; its charge rises by one
(R50, R57, R73). -/
def State.addReader (s : State) (p : Port) (b : BufIx) : State :=
  (s.modBuf b fun r =>
    { r with
      readers := r.readers ++ [{ port := p, lease := leaseOf (s.port p).session.readLease }],
      pending := maskErase r.pending p }).raiseCharge p

/-- The result words of a TAKE: handle, length, tag and origin (R57, R173). -/
def State.takeResult (s : State) (b : BufIx) : Vector Word 4 :=
  res4 (s.handle b) (BitVec.ofNat 16 (s.buf b).length) (s.buf b).tag
    (BitVec.ofNat 16 (((s.buf b).origin.map Fin.val).getD 0))

/-- The port takes the entry from the channel (R57): it becomes a reader, and the entry leaves the queue when no destination is
left pending. The TAKE completes OK. -/
def Work.giveEntry (w : Work) (p : Port) (c : ChanIx) (b : BufIx) (long : Bool) : Work :=
  let w' := w.map fun s =>
    let t := s.addReader p b
    if (t.buf b).pending = 0 then t.leaveQueue c b else t
  w'.complete p .ok (w'.state.takeResult b) long

/-- The first entry of the channel eligible for the port: the head of a UNICAST queue; the first entry of a FANOUT queue with the
port pending (R56). -/
def State.eligible (s : State) (c : ChanIx) (p : Port) : Option BufIx :=
  match (s.chan c).setup with
  | none => none
  | some u =>
    match u.kind with
    | .unicast => (s.chan c).queue.head?
    | .fanout => (s.chan c).queue.find? fun b => maskHas (s.buf b).pending p

/-- The channel in whose take-waiter set the port stands. -/
def State.takeWaitOf (s : State) (p : Port) : Option ChanIx := allChannels.find? fun c => maskHas (s.chan c).takeWaiters p

/-- The port leaves the channel's take-waiter set. -/
def State.leaveTakeWait (s : State) (c : ChanIx) (p : Port) : State :=
  s.modChan c fun x => { x with takeWaiters := maskErase x.takeWaiters p }

/-- Take service (R59): a take waiter below its quota gets the entry eligible for it, if there is one. -/
def Work.takeService (w : Work) (p : Port) : Work :=
  match w.state.takeWaitOf p with
  | none => w
  | some c =>
    if w.state.belowQuota p then
      match w.state.eligible c p with
      | none => w
      | some b => (w.map fun s => s.leaveTakeWait c p).giveEntry p c b true
    else w

/-- The service of one port at the end of an operation that lowered its charge or raised its quota: claim service when it stands
on the Claim Wait List, take service when it stands in a take-waiter set (R9, R59, R79, R162). -/
def Work.serveWaiter (w : Work) (p : Port) : Work :=
  if w.state.claimWait.contains p then w.claimService else w.takeService p

/-! ## Reclaim (R80 to R82) -/

/-- The operation uses the buffer as its destination or source. -/
def Bulk.uses (m : Bulk) (b : BufIx) : Bool := m.destination.buffer == b || m.source.any fun r => r.buffer == b

/-- The operation is a COPY that reads the buffer. -/
def Bulk.readsFrom (m : Bulk) (b : BufIx) : Bool := m.source.any fun r => r.buffer == b

/-- Reclaim of the port's holding (R80). -/
def Work.reclaimHolding (w : Work) (p : Port) (b : BufIx) : Work :=
  (w.map fun s =>
    let t := ((s.modBuf b fun r => { r with holder := none }).lowerCharge p).staleWindows p b
    if (t.port p).engine.bulk.any fun m => m.uses b then t.markAbort p else t).lastUse b

/-- Reclaim of the port's reader role (R81). -/
def Work.reclaimReader (w : Work) (p : Port) (b : BufIx) : Work :=
  (w.map fun s =>
    let t :=
      ((s.modBuf b fun r => { r with readers := r.readers.filter fun e => e.port != p }).lowerCharge p).staleWindows p b
    if (t.port p).engine.bulk.any fun m => m.readsFrom b then t.markAbort p else t).lastUse b

/-! ## Disposal of channel entries -/

/-- The entry leaves the queue with its pending set emptied (R53 step 1, R61 step 1). -/
def State.dropEntry (s : State) (c : ChanIx) (b : BufIx) : State :=
  (s.leaveQueue c b).modBuf b fun r => { r with pending := 0 }

/-- A record to the buffer's origin, when it is attached: subject the buffer's handle as it stands, value the channel. -/
def State.tellOrigin (s : State) (k : RecordKind) (c : ChanIx) (b : BufIx) : State :=
  match (s.buf b).origin with
  | none => s
  | some o => if s.attached o then s.place o { kind := k, subject := s.handle b, value := BitVec.ofNat 16 c.val } else s

/-- What a close step did with an entry: kept it READING, returned it, or discarded it (R61). -/
inductive Disposal where
  | kept | returned | discarded
deriving DecidableEq, Repr

/-- What the close step does with the head entry's buffer (R61 steps 2 to 4), judged once the entry has left the queue. -/
def State.disposalOf (s : State) (b : BufIx) : Disposal :=
  if !(s.buf b).readers.isEmpty then .kept
  else
    match (s.buf b).origin with
    | none => .discarded
    | some o => if s.attached o && s.belowQuota o then .returned else .discarded

/-- The buffer returns to its origin (R61 step 3). -/
def State.returnTo (s : State) (o : Port) (b : BufIx) : State :=
  (s.modBuf b fun r =>
    { r with holder := some { port := o, lease := leaseOf (s.port o).session.holdLease }, origin := none }).raiseCharge o

/-- A close step disposes of the entry at the head of the queue (R61). -/
def Work.disposeEntry (w : Work) (c : ChanIx) (b : BufIx) : Work :=
  let w' := w.map fun s => s.dropEntry c b
  match w'.state.disposalOf b with
  | .kept => w'
  | .returned =>
    w'.map fun s =>
      match (s.buf b).origin with
      | none => s
      | some o => (s.tellOrigin .returned c b).returnTo o b
  | .discarded => (w'.map fun s => s.tellOrigin .discarded c b).lastUse b

/-- What disposing of the entry will come to. -/
def State.disposalAt (s : State) (c : ChanIx) (b : BufIx) : Disposal := (s.dropEntry c b).disposalOf b

/-- The channel becomes CLOSED: its fields are absent, its queue and take-waiter set empty (R62 step 1). -/
def State.closeChan (s : State) (c : ChanIx) : State := s.setChan c Chan.reset

/-- The last step of a close (R62): the channel becomes CLOSED, and attached destinations other than the closer are told. -/
def State.lastCloseStep (s : State) (c : ChanIx) (closer : Port) : State :=
  (s.closeChan c).placeAll ((maskPorts (s.chan c).destinations).filter fun q => q != closer && s.attached q)
    (mkRecord .channelClosed c.val 0)

/-- The port leaves the pending set of every entry of the queue; each entry left with no destination pending leaves the queue,
head to tail, and its buffer goes where the last-use rule sends it (R65 steps 2 and 3). -/
def Work.removePending (w : Work) (c : ChanIx) (p : Port) : Work :=
  let q := (w.state.chan c).queue
  let w' := w.map fun s => q.foldl (fun s b => s.modBuf b fun r => { r with pending := maskErase r.pending p }) s
  q.foldl
    (fun w b => if (w.state.buf b).pending = 0 then (w.map fun s => s.leaveQueue c b).lastUse b else w)
    w'

/-- The channel with a port taken out of its destination set. -/
def ChanStatus.withoutDestination (x : ChanStatus) (p : Port) : ChanStatus :=
  match x with
  | .closed => .closed
  | .opened u => .opened { u with destinations := maskErase u.destinations p }
  | .closing u q => .closing { u with destinations := maskErase u.destinations p } q

/-- A torn-down port is removed from a FANOUT channel (R65); a channel left with no destination becomes CLOSED. -/
def Work.removeDestination (w : Work) (c : ChanIx) (p : Port) : Work :=
  let w' :=
    (w.map fun s => s.modChan c fun x =>
      { x with status := x.status.withoutDestination p, takeWaiters := maskErase x.takeWaiters p }).removePending c p
  if (w'.state.chan c).destinations = 0 then w'.map fun s => s.closeChan c else w'

end Sys2Proof.Machine
end

