-- ==== Sys2Proof/Machine/Arbiter.lean ====
section
/-! DEFINITION. The Table Arbiter and the Bank Arbiters: what each requester offers, whom they grant; the access paths; and the
activity that follows each command by itself. -/

namespace Sys2Proof.Machine

/-! ## What the requesters offer (R20; log 4) -/

/-- The table operations a requester can offer. -/
inductive TableOp where
  | request (c : ReqCode)
  | cancel | timeout | zeroFillStart | endStep | closeStep
  | fence | role | channel | final
  | expiry
deriving DecidableEq, Repr

/-- The requests that are carried out by table operations (R29). -/
def ReqCode.byTable : ReqCode → Bool
  | .claim | .release | .adopt | .renew | .query | .openChannel | .closeChannel | .post | .take | .channelStatus
  | .map | .fill | .copy | .setQuota => true
  | .cancel | .setLease | .unmap | .attach | .detach | .quiesce | .resume | .setParam | .clearStatus => false

/-- The mover has stopped. -/
def Bulk.stopped (m : Bulk) : Bool :=
  match m.phase with
  | .moving => false
  | .stopped _ => true

/-- What an engine offers (R21): in WAITING its cancel or timeout operation; in BUSY the end step of a stopped bulk operation, the
start step of a zero fill, its next close step, or the table operation of its request. -/
def Engine.offer (e : Engine) : Option TableOp :=
  match e.state with
  | .idle => none
  | .waiting => if e.cancelMarker then some .cancel else if e.timer.isNone then some .timeout else none
  | .busy =>
    match e.bulk with
    | some m => if m.stopped then some .endStep else none
    | none =>
      if e.claimed.isSome then some .zeroFillStart
      else if e.close.isSome then some .closeStep
      else
        match e.request with
        | some r => if r.code.byTable then some (.request r.code) else none
        | none => none

/-- What a Teardown Unit offers (R139, R143; log 12): the end step it owes as soon as the mover has stopped, else the next step of
its phase; never the final step while an end step is owed. -/
def PortState.teardownOffer (x : PortState) : Option TableOp :=
  match x.teardown.phase with
  | .idle => none
  | .fence => some .fence
  | .roles => if x.teardown.endOwed && x.engine.bulk.any Bulk.stopped then some .endStep else some .role
  | .channels => if x.teardown.endOwed && x.engine.bulk.any Bulk.stopped then some .endStep else some .channel
  | .final =>
    if x.teardown.endOwed then (if x.engine.bulk.any Bulk.stopped then some .endStep else none) else some .final

/-- What a requester offers to the Table Arbiter; the engine of a RESETTING port offers nothing (R20, R138). -/
def State.offer (s : State) : Requester → Option TableOp
  | .re p => if s.sessionState p = .resetting then none else (s.port p).engine.offer
  | .tu p => (s.port p).teardownOffer
  | .lm => if s.lmOffer.isSome then some .expiry else none

/-! ## The Table Arbiter (R16) -/

/-- The ring of requesters. -/
def ring : List Requester := [.re 0, .tu 0, .re 1, .tu 1, .re 2, .tu 2, .re 3, .tu 3, .lm]

/-- The ring counted from the requester after `r`. -/
def ringAfter (r : Requester) : List Requester :=
  ring.drop (ring.idxOf r + 1) ++ ring.take (ring.idxOf r + 1)

/-- The requester the Table Arbiter grants next: the first with an operation waiting after the one it served last; none while
/RESET is low. -/
def State.tableChoice (s : State) : Option Requester :=
  if s.resetLow then none else (ringAfter s.lastServed).find? fun r => (s.offer r).isSome

/-- The Table Arbiter grants `op` of requester `r`. -/
def State.grants (s : State) (r : Requester) (op : TableOp) : Bool :=
  s.tableChoice == some r && s.offer r == some op

/-- A table operation is carried out whole when the arbiter grants it (R17); otherwise it has no effect (log 3). -/
def State.tableOp (s : State) (r : Requester) (op : TableOp) (body : Work → Work) : State :=
  if s.grants r op then (body (Work.start (s.served r))).finish else s

/-- The table operation of a port's request (R29). -/
def State.tableRequest (s : State) (p : Port) (c : ReqCode) (body : Work → Work) : State :=
  s.tableOp (.re p) (.request c) body

/-- A request handed to another block is BUSY with it (R29); in a RESETTING port it waits for the fence step (log 11). -/
def State.blockReady (s : State) (p : Port) (c : ReqCode) : Bool :=
  !s.resetLow && s.sessionState p != .resetting && (s.port p).engine.state == .busy &&
    (s.port p).engine.request.any fun r => r.code == c

/-- A request carried out by another block of the port or by Supervision, at one moment and without a table operation (R29). -/
def State.blockRequest (s : State) (p : Port) (c : ReqCode) (body : Work → Work) : State :=
  if s.blockReady p c then (body (Work.start s)).finish else s

/-! ## Bursts (R110) -/

/-- The bytes left in the row of an offset, going up from it. -/
def rowLeftUp (o : Nat) : Nat := 256 - o % 256

/-- The bytes left in the row below an end offset, going down from it. -/
def rowLeftDown (e : Nat) : Nat := (e - 1) % 256 + 1

/-- The length of the next burst (R110): the least of 32, the bytes still to move, and the bytes left in each buffer's row. -/
def Bulk.burstLength (m : Bulk) : Nat :=
  let left := m.count - m.bytesDone
  let within (r : BulkRange) : Nat :=
    match m.direction with
    | .ascending => rowLeftUp (r.offset + m.bytesDone)
    | .descending => rowLeftDown (r.offset + left)
  let n := min 32 (min left (within m.destination))
  match m.source with
  | none => n
  | some r => min n (within r)

/-- Where the next burst begins in a range (R110). -/
def Bulk.burstStart (m : Bulk) (r : BulkRange) : Nat :=
  match m.direction with
  | .ascending => r.offset + m.bytesDone
  | .descending => r.offset + (m.count - m.bytesDone) - m.burstLength

/-! ## Access paths (R122) -/

/-- What the path presents for a bus access. -/
def AccessKind.pathRequest : AccessKind → PathRequest
  | .windowRead _ => .windowRead
  | .windowWrite _ _ => .windowWrite
  | .streamRead _ => .streamRead
  | .streamWrite _ _ => .streamWrite

/-- A bank request for an offset of a buffer. -/
def requestAt (b : BufIx) (o : Nat) (what : PathRequest) : BankRequest := { bank := bankOf b, row := rowOf b o, what := what }

/-- The write of a COPY burst whose read has been carried out (R122 case 1). -/
def Engine.copyWriteDue (e : Engine) : Option BankRequest :=
  match e.bulk with
  | some m =>
    if m.readRun.isSome then some (requestAt m.destination.buffer (m.burstStart m.destination) .copyWrite) else none
  | none => none

/-- The window or stream access that waits for its bank (R122 case 2). -/
def PortState.accessDue (x : PortState) : Option BankRequest :=
  match x.access with
  | some a => if a.phase = .waiting then some (requestAt a.buffer a.offset a.kind.pathRequest) else none
  | none => none

/-- The mover's next burst, or the read of its next COPY burst, when it is MOVING and finds its abort mark clear (R122 case 3). -/
def Engine.burstDue (e : Engine) : Option BankRequest :=
  match e.bulk with
  | some m =>
    if m.phase = .moving && !m.abort then
      match m.source with
      | some r => some (requestAt r.buffer (m.burstStart r) .copyRead)
      | none => some (requestAt m.destination.buffer (m.burstStart m.destination) .fillBurst)
    else none
  | none => none

/-- The mover stops with an outcome; bytes read and not written are discarded (R112 to R115). -/
def Bulk.stop (m : Bulk) (o : BulkOutcome) : Bulk := { m with phase := .stopped o, readRun := none }

/-- The mover reads its mark before presenting a burst, and stops when it is set (R113). -/
def Engine.readMark (e : Engine) : Engine :=
  { e with bulk := e.bulk.map fun m => if m.phase = .moving && m.abort then m.stop .aborted else m }

/-- A FREE path presents its next request: the write of a COPY burst, else a waiting access, else the mover's burst (R122). An access that
has arrived during the read of a COPY burst so goes after that burst's write, as R112, R116 and R122 case 1 say; that the last sentence of
R122, which names it before the write, yields to them is the model's choice (log 27). -/
def PortState.present (x : PortState) : PortState :=
  match x.path with
  | some _ => x
  | none =>
    match x.engine.copyWriteDue.or x.accessDue with
    | some r => { x with path := some r }
    | none => { x with engine := x.engine.readMark, path := x.engine.burstDue }

/-! ## The Bank Arbiters (R124, R125) -/

/-- The port's access path has a request waiting at the bank. -/
def State.waitsAt (s : State) (k : BankIx) (p : Port) : Bool := (s.port p).path.any fun r => r.bank == k

/-- The ports in ring order from the one after `p`. -/
def portsAfter (p : Port) : List Port := [p + 1, p + 2, p + 3, p]

/-- The refresh request of the bank is waiting; it is urgent when the debt has reached URGENT_DEBT (R128). -/
def State.refreshWaits (s : State) (k : BankIx) : Bool := (s.bankRefresh k).debt ≠ 0
def State.refreshUrgent (s : State) (k : BankIx) : Bool := s.refreshWaits k && s.urgentDebt ≤ (s.bankRefresh k).debt

/-- Whom a free bank's arbiter grants: an urgent refresh; else the first waiting port after the last-granted; else an ordinary
refresh (R125). None while the bank is not free or /RESET is low. -/
def State.bankChoice (s : State) (k : BankIx) : Option BankGrant :=
  if s.resetLow || (s.arbiter k).current.isSome then none
  else if s.refreshUrgent k then some .refresh
  else
    match (portsAfter (s.arbiter k).lastPort).find? (s.waitsAt k) with
    | some p => some (.port p)
    | none => if s.refreshWaits k then some .refresh else none

/-- The bank grants the port's request of this kind, and becomes occupied by it; otherwise nothing happens (R125, R126). -/
def State.bankGrant (s : State) (p : Port) (what : PathRequest) (body : State → State) : State :=
  match (s.port p).path with
  | none => s
  | some r =>
    if r.what == what && s.bankChoice r.bank == some (.port p) then
      body (s.modArbiter r.bank fun _ => { lastPort := p, current := some (.port p) })
    else s

/-- The port's granted request of this kind has been carried out: the bank and the path become free (R126), and `body` ends what
the request was for. -/
def State.bankDone (s : State) (p : Port) (what : PathRequest) (body : State → State) : State :=
  match (s.port p).path with
  | none => s
  | some r =>
    if !s.resetLow && r.what == what && (s.arbiter r.bank).current == some (.port p) then
      body ((s.modArbiter r.bank fun a => { a with current := none }).modPort p fun x => { x with path := none })
    else s

/-! ## What follows each command by itself (log 13) -/

/-- The key by which positions are ordered: by buffer, the holder first, then readers P0 to P3 (R77). -/
def Position.key (x : Position) : Nat :=
  5 * x.buffer.val + match x.role with
    | .holder => 0
    | .reader p => p.val + 1

/-- The next entry of the sweep: the first position beyond the sweep position, else the first of the list (R77). -/
def State.nextInSweep (s : State) : Option Position :=
  match s.expiry.find? fun e => s.sweep.key < e.1.key with
  | some e => some e.1
  | none => s.expiry.head?.map Prod.fst

/-- The Lease Monitor offers an expiry operation when it has none on offer and its list holds an entry (R77). -/
def State.offerExpiry (s : State) : State :=
  match s.lmOffer with
  | some _ => s
  | none =>
    match s.nextInSweep with
    | none => s
    | some x => { s with sweep := x, lmOffer := some x }

/-- After each command the free access paths present what they have, and the Lease Monitor offers its next expiry (R77, R122). -/
def State.settle (s : State) : State :=
  if s.resetLow then s else ({ s with ports := s.ports.map PortState.present } : State).offerExpiry

/-- The outcome of a command: no command stops the device. -/
def done (s : State) : Host.Outcome State Fault Refusal := .next s.settle

end Sys2Proof.Machine
end

