-- ==== Sys2Proof/Machine/Requests.lean ====
section
/-! DEFINITION. Taking and refusing requests (2.2), CANCEL (2.4), BAD_REQUEST and REFUSED. -/

namespace Sys2Proof.Machine

/-- A bus access of the port reaches the device: /RESET and /PRSTn are high, and no earlier access is still open (R137, R165,
R167; log 14). -/
def State.busReady (s : State) (p : Port) : Bool := !s.resetLow && !(s.port p).prstLow && (s.port p).access.isNone

/-- Both byte enables asserted. -/
def bothLanes : Lanes := { lo := true, hi := true }

/-- The requests a session state admits (R25). -/
def admits : SessionState → ReqCode → Bool
  | .detached, c => c == .attach
  | .active, c => c != .attach && c != .resume
  | .quiesced, c => c == .resume || c == .detach || c == .query || c == .channelStatus || c == .unmap
  | .resetting, _ => false

/-- The engine with a request latched (R24 steps 1 to 3). -/
def Engine.taking (e : Engine) (w : Word) : Engine :=
  { e with
    state := .busy
    request := (reqCodeOf (lowByte w)).map fun c => { code := c, zero := reqZero w, head := reqHead w }
    operands := some e.opd
    result := .none
    res := res0
    reqWord := reqReadBack w }

/-- A REQ write is taken as a new request (R24): unknown codes and requests the session does not admit complete at once, and so
does CANCEL (R33). -/
def State.takeRequest (s : State) (p : Port) (w : Word) : State :=
  let t := Work.start (s.modEngine p fun e => e.taking w)
  match reqCodeOf (lowByte w) with
  | none => (t.refuse p .badRequest).finish
  | some c =>
    if !admits (s.sessionState p) c then (t.refuse p .session).finish
    else if c = .cancel then (t.complete p .ok res0 false).finish
    else t.state

/-- CANCEL taken while the engine is WAITING or BUSY (R34 to R36): it sets the cancel marker unless the timer has expired, or the
abort mark of a bulk operation in flight; otherwise it has no effect. -/
def Engine.cancelled (e : Engine) : Engine :=
  match e.state with
  | .idle => e
  | .waiting => if e.timer.isSome then { e with cancelMarker := true } else e
  | .busy => { e with bulk := e.bulk.map fun m => { m with abort := true } }

/-- A write to REQ (R24, R26, R27). -/
def State.reqWrite (s : State) (p : Port) (w : Word) (l : Lanes) : State :=
  if !s.busReady p then s
  else if !l.lo && !l.hi then s
  else if l.lo != l.hi || s.sessionState p == .resetting then s.setRefused p
  else if (s.port p).engine.state = .idle then s.takeRequest p w
  else if reqCodeOf (lowByte w) = some .cancel then s.modEngine p Engine.cancelled
  else s.setRefused p

/-- A request at one of its two moments: the REQ write with its code and flags, or being carried out. -/
def State.atMoment (s : State) (p : Port) (c : ReqCode) (m : ReqMoment) (carriedOut : State) : State :=
  match m with
  | .written zero head => s.reqWrite p (reqWordOf c zero head) bothLanes
  | .carriedOut => carriedOut

/-- CANCEL (R33 to R36): its whole effect comes with the REQ write. -/
def execCancel (p : Port) (zero head : Bool) (s : State) : Host.Outcome State Fault Refusal :=
  done (s.reqWrite p (reqWordOf .cancel zero head) bothLanes)

/-- BAD_REQUEST (R24): a REQ write, both byte enables asserted, with an unknown code. -/
def execBadRequest (p : Port) (word : Word) (s : State) : Host.Outcome State Fault Refusal :=
  done (s.reqWrite p word bothLanes)

/-- REFUSED (R26, R27): a REQ write of any word with any byte enables. When R26 or R27 refuses it, it sets REFUSED alone. -/
def execRefused (p : Port) (word : Word) (lanes : Lanes) (s : State) : Host.Outcome State Fault Refusal :=
  done (s.reqWrite p word lanes)

end Sys2Proof.Machine
end

