-- ==== Sys2Proof/Machine/PoolRequests.lean ====
section
/-! DEFINITION. The immediate pool requests CLAIM, RELEASE, ADOPT and QUERY (2.5), and RENEW (4.5). -/

namespace Sys2Proof.Machine

/-- The engine begins a wait: WAITING, its timer loaded from the latched timeout (R38, R67). -/
def State.beginWait (s : State) (p : Port) : State :=
  s.modEngine p fun e => { e with state := .waiting, timer := some (timerOf (s.operand p 1)), cancelMarker := false }

/-- The table operation of CLAIM (R37, R38). -/
def Work.claim (w : Work) (p : Port) : Work :=
  if !w.state.belowQuota p then w.refuse p .quota
  else
    match w.state.freeList with
    | b :: rest => (w.map fun s => (s.handOut p b).setFreeList rest).claimGiven p b false
    | [] =>
      if w.state.operand p 1 = 0 then w.refuse p .noBuffer
      else w.map fun s => (s.beginWait p).setClaimWait (s.claimWait ++ [p])

/-- RELEASE of a holding (R39). -/
def Work.releaseHolding (w : Work) (p : Port) (b : BufIx) : Work :=
  if (w.state.buf b).bulkCount ≠ 0 then w.refuse p .busyBuffer
  else
    ((w.map fun s => ((s.modBuf b fun r => { r with holder := none }).unmapWindows p b).lowerCharge p).enterFree b).complete
      p .ok res0 false

/-- RELEASE of a reader role (R40). -/
def Work.releaseReader (w : Work) (p : Port) (b : BufIx) : Work :=
  ((w.map fun s =>
    ((s.modBuf b fun r => { r with readers := r.readers.filter fun e => e.port != p }).unmapWindows p b).lowerCharge
      p).lastUse b).complete p .ok res0 false

/-- The table operation of RELEASE (R39, R40). -/
def Work.release (w : Work) (p : Port) : Work :=
  let h := w.state.operand p 0
  match w.state.checkHandle h with
  | some c => w.refuse p c
  | none =>
    let b := handleIx h
    if (w.state.buf b).heldBy p then w.releaseHolding p b
    else if (w.state.buf b).readBy p then w.releaseReader p b
    else w.refuse p .notHolder

/-- Why ADOPT is refused, by its checks in order (R41). -/
def State.adoptRefusal (s : State) (p : Port) : Option ResultCode :=
  let h := s.operand p 0
  match s.checkHandle h with
  | some c => some c
  | none =>
    let r := s.buf (handleIx h)
    if !r.readBy p then some .notHolder
    else if r.readers.length ≠ 1 then some .badState
    else if r.pending ≠ 0 then some .badState
    else none

/-- The table operation of ADOPT (R41): the sole reader's role becomes a holding with a hold lease. -/
def Work.adopt (w : Work) (p : Port) : Work :=
  match w.state.adoptRefusal p with
  | some c => w.refuse p c
  | none =>
    let b := handleIx (w.state.operand p 0)
    let w' := w.map fun s => s.modBuf b fun r =>
      { r with holder := some { port := p, lease := leaseOf (s.port p).session.holdLease }, readers := [], origin := none }
    w'.complete p .ok (res1 (w'.state.handle b)) false

/-- QUERY's result words (R42, R168). -/
def queryWords (r : BufRec) : Vector Word 4 :=
  res4
    (fieldAt (bufStateValue r.state) 0 ||| bitAt r.holder.isSome 3 ||| fieldAt ((r.holder.map fun h => h.port.val).getD 0) 4 |||
      fieldAt (maskOf (r.readers.map Role.port)).toNat 8)
    (BitVec.ofNat 16 r.length)
    r.tag
    (fieldAt r.pending.toNat 0 ||| fieldAt ((r.channel.map Fin.val).getD 0) 8 ||| bitAt r.channel.isSome 12 |||
      fieldAt ((r.origin.map Fin.val).getD 0) 13 ||| bitAt r.origin.isSome 15)

/-- The table operation of QUERY (R42). -/
def Work.query (w : Work) (p : Port) : Work :=
  let h := w.state.operand p 0
  match w.state.checkHandle h with
  | some c => w.refuse p c
  | none => w.complete p .ok (queryWords (w.state.buf (handleIx h))) false

/-- A role's lease under RENEW (R83): none stays none; a lease restarts at the policy value, or is dropped when that is 0. -/
def renewLease (l : Option Lease) (policy : Word) : Option Lease := l.bind fun _ => leaseOf policy

/-- The lease of the port's role in a buffer. -/
def BufRec.leaseOfPort (r : BufRec) (p : Port) : Option Lease :=
  if r.heldBy p then r.holder.bind Role.lease else (r.readers.find? fun e => e.port == p).bind Role.lease

/-- The lease of the port's role replaced. -/
def BufRec.setLease (r : BufRec) (p : Port) (l : Option Lease) : BufRec :=
  if r.heldBy p then { r with holder := r.holder.map fun h => { h with lease := l } }
  else { r with readers := r.readers.map fun e => if e.port = p then { e with lease := l } else e }

/-- The table operation of RENEW (R83). -/
def Work.renew (w : Work) (p : Port) : Work :=
  let h := w.state.operand p 0
  match w.state.checkHandle h with
  | some c => w.refuse p c
  | none =>
    let b := handleIx h
    let r := w.state.buf b
    if !r.roleOf p then w.refuse p .notHolder
    else
      let x := (w.state.port p).session
      let l := renewLease (r.leaseOfPort p) (if r.heldBy p then x.holdLease else x.readLease)
      (w.map fun s => s.modBuf b fun r => r.setLease p l).complete p .ok (res1 ((l.map Lease.remaining).getD 0)) false

/-- CLAIM (R37, R38). -/
def execClaim (p : Port) (m : ReqMoment) (s : State) : Host.Outcome State Fault Refusal :=
  done (s.atMoment p .claim m (s.tableRequest p .claim fun w => w.claim p))

/-- RELEASE (R39, R40). -/
def execRelease (p : Port) (m : ReqMoment) (s : State) : Host.Outcome State Fault Refusal :=
  done (s.atMoment p .release m (s.tableRequest p .release fun w => w.release p))

/-- ADOPT (R41). -/
def execAdopt (p : Port) (m : ReqMoment) (s : State) : Host.Outcome State Fault Refusal :=
  done (s.atMoment p .adopt m (s.tableRequest p .adopt fun w => w.adopt p))

/-- QUERY (R42). -/
def execQuery (p : Port) (m : ReqMoment) (s : State) : Host.Outcome State Fault Refusal :=
  done (s.atMoment p .query m (s.tableRequest p .query fun w => w.query p))

/-- RENEW (R83). -/
def execRenew (p : Port) (m : ReqMoment) (s : State) : Host.Outcome State Fault Refusal :=
  done (s.atMoment p .renew m (s.tableRequest p .renew fun w => w.renew p))

end Sys2Proof.Machine
end

