-- ==== Sys2Proof/Machine/Channels.lean ====
section
/-! DEFINITION. OPEN_CHANNEL, POST, TAKE, CHANNEL_STATUS, CLOSE_CHANNEL and the close steps (Chapter 3). -/

namespace Sys2Proof.Machine

/-! ## OPEN_CHANNEL (R46, R47) -/

/-- The destination mask suits the kind: one port for UNICAST, two to four for FANOUT (R46 check 3). -/
def ChanSetup.destinationsSuit (u : ChanSetup) : Bool :=
  match u.kind with
  | .unicast => (maskPorts u.destinations).length == 1
  | .fanout => 2 ≤ (maskPorts u.destinations).length

/-- Why OPEN_CHANNEL is refused, by its checks in order; none when it opens the channel (R46). -/
def State.openRefusal (s : State) (p : Port) : Option ResultCode :=
  let u := setupOperand (s.operands p)
  match channelOperand (s.operand p 0) with
  | none => some .range
  | some c =>
    if (s.chan c).status ≠ .closed then some .badState
    else if !u.destinationsSuit then some .range
    else if !maskHas u.destinations p then some .notDestination
    else if !(maskPorts u.destinations).all s.attached then some .session
    else if u.sources = 0 || u.capacity < 1 || 255 < u.capacity then some .range
    else none

/-- The table operation of OPEN_CHANNEL (R46, R47). -/
def Work.openChannel (w : Work) (p : Port) : Work :=
  match w.state.openRefusal p, channelOperand (w.state.operand p 0) with
  | some e, _ => w.refuse p e
  | none, none => w
  | none, some c =>
    let u := setupOperand (w.state.operands p)
    (w.map fun s =>
      (s.setChan c { status := .opened u, queue := [], takeWaiters := 0 }).placeAll
        ((maskPorts u.destinations).filter fun q => q != p) (mkRecord .channelOpened c.val 0)).complete p .ok res0 false

/-! ## POST (R48 to R55) -/

/-- A destination would remain pending after direct delivery: one that is no take waiter, or stands at its quota (R52). -/
def State.wouldRemain (s : State) (c : ChanIx) : Bool :=
  (maskPorts (s.chan c).destinations).any fun q => !(maskHas (s.chan c).takeWaiters q && s.belowQuota q)

/-- The queue holds as many entries as the channel's capacity (R52, R53). -/
def State.queueFull (s : State) (c : ChanIx) : Bool := ((s.chan c).setup.map ChanSetup.capacity).getD 0 ≤ (s.chan c).queue.length

/-- Why POST is refused, by its checks in order (R48, R52). -/
def State.postRefusal (s : State) (p : Port) : Option ResultCode :=
  let h := s.operand p 0
  match s.checkHandle h with
  | some e => some e
  | none =>
    let r := s.buf (handleIx h)
    if !r.heldBy p then some .notHolder
    else if r.bulkCount ≠ 0 then some .busyBuffer
    else
      match channelOperand (s.operand p 1) with
      | none => some .range
      | some c =>
        match (s.chan c).status with
        | .opened u =>
          if !maskHas u.sources p then some .notSource
          else if 512 < (s.operand p 2).toNat then some .range
          else if u.policy = .refuse && s.queueFull c && s.wouldRemain c then some .queueFull
          else none
        | _ => some .channelClosed

/-- POST ends the holding and prepares the record (R49). -/
def State.postRecord (s : State) (p : Port) (b : BufIx) (c : ChanIx) : State :=
  ((s.modBuf b fun r =>
    { r with
      length := (s.operand p 2).toNat, tag := s.operand p 3, origin := some p, holder := none,
      pending := (s.chan c).destinations, channel := some c }).unmapWindows p b).lowerCharge p

/-- Direct delivery to one waiting destination (R50). -/
def Work.deliver (w : Work) (q : Port) (c : ChanIx) (b : BufIx) : Work :=
  if w.state.belowQuota q then
    let w' := w.map fun s => (s.addReader q b).leaveTakeWait c q
    w'.complete q .ok (w'.state.takeResult b) true
  else w

/-- Direct delivery to the take waiters in port order (R50). -/
def Work.deliverAll (w : Work) (c : ChanIx) (b : BufIx) : Work :=
  (maskPorts ((w.state.chan c).takeWaiters &&& (w.state.chan c).destinations)).foldl (fun w q => w.deliver q c b) w

/-- Displacement of the head entry of a full queue under DISPLACE_OLDEST (R53). -/
def Work.displace (w : Work) (c : ChanIx) : Work :=
  if ((w.state.chan c).setup.any fun u => u.policy == .displaceOldest) && w.state.queueFull c then
    match (w.state.chan c).queue with
    | [] => w
    | d :: _ =>
      let w' := w.map fun s => s.dropEntry c d
      if !(w'.state.buf d).readers.isEmpty then w' else (w'.map fun s => s.tellOrigin .displaced c d).lastUse d
  else w

/-- The pending destinations that receive an ARRIVAL for the entry about to join: attached ones, all of them under EVERY, under
EDGE those with no entry in the queue pending for them (R54). -/
def State.arrivalPorts (s : State) (c : ChanIx) (b : BufIx) : List Port :=
  (maskPorts (s.buf b).pending).filter fun q =>
    s.attached q &&
      (!((s.chan c).setup.any fun u => u.notice == .edge) || !(s.chan c).queue.any fun d => maskHas (s.buf d).pending q)

/-- The buffer joins the queue, at the head with HEAD and at the tail without, and ARRIVAL records are placed (R51, R54). -/
def State.joinQueue (s : State) (c : ChanIx) (b : BufIx) (head : Bool) : State :=
  (s.modChan c fun x => { x with queue := if head then b :: x.queue else x.queue ++ [b] }).placeAll (s.arrivalPorts c b)
    (mkRecord .arrival c.val 1)

/-- POST finishes by the pending set (R51): with none left the channel field becomes absent; else displacement, then joining. -/
def Work.postFinish (w : Work) (c : ChanIx) (b : BufIx) (head : Bool) : Work :=
  if (w.state.buf b).pending = 0 then w.map fun s => s.modBuf b fun r => { r with channel := none }
  else (w.displace c).map fun s => s.joinQueue c b head

/-- The flag HEAD of the port's request. -/
def State.headFlag (s : State) (p : Port) : Bool := (s.port p).engine.request.any Request.head

/-- The table operation of POST (R48 to R55). -/
def Work.post (w : Work) (p : Port) : Work :=
  match w.state.postRefusal p, channelOperand (w.state.operand p 1) with
  | some e, _ => w.refuse p e
  | none, none => w
  | none, some c =>
    let b := handleIx (w.state.operand p 0)
    let w' := ((w.map fun s => s.postRecord p b c).deliverAll c b).postFinish c b (w.state.headFlag p)
    w'.complete p .ok (res1 (BitVec.ofNat 16 (w'.state.chan c).queue.length)) false

/-! ## TAKE (R56, R57) -/

/-- Why TAKE is refused before it looks for an entry (R56 checks 1 to 4). -/
def State.takeRefusal (s : State) (p : Port) : Option ResultCode :=
  match channelOperand (s.operand p 0) with
  | none => some .range
  | some c =>
    match (s.chan c).status with
    | .opened u =>
      if !maskHas u.destinations p then some .notDestination
      else if !s.belowQuota p then some .quota
      else none
    | _ => some .channelClosed

/-- The table operation of TAKE (R56, R57). -/
def Work.take (w : Work) (p : Port) : Work :=
  match w.state.takeRefusal p, channelOperand (w.state.operand p 0) with
  | some e, _ => w.refuse p e
  | none, none => w
  | none, some c =>
    match w.state.eligible c p with
    | some b => w.giveEntry p c b false
    | none =>
      if w.state.operand p 1 = 0 then w.refuse p .queueEmpty
      else w.map fun s => (s.beginWait p).modChan c fun x => { x with takeWaiters := maskInsert x.takeWaiters p }

/-! ## CHANNEL_STATUS (R66) -/

/-- The channel state value (R168). -/
def ChanStatus.value : ChanStatus → Nat
  | .closed => 0
  | .opened _ => 1
  | .closing _ _ => 2

/-- CHANNEL_STATUS's result words (R66, R168). -/
def statusWords (x : Chan) : Vector Word 4 :=
  let has (f : ChanSetup → Bool) : Bool := x.setup.any f
  res4
    (fieldAt x.status.value 0 ||| bitAt (has fun u => u.kind == .fanout) 4 |||
      bitAt (has fun u => u.policy == .displaceOldest) 5 ||| bitAt (has fun u => u.notice == .edge) 6 |||
      bitAt x.setup.isSome 7)
    (BitVec.ofNat 16 x.queue.length)
    (BitVec.ofNat 16 ((x.setup.map ChanSetup.capacity).getD 0))
    (fieldAt x.destinations.toNat 0 ||| fieldAt ((x.setup.map ChanSetup.sources).getD 0).toNat 8)

/-- The table operation of CHANNEL_STATUS (R66). -/
def Work.channelStatus (w : Work) (p : Port) : Work :=
  match channelOperand (w.state.operand p 0) with
  | none => w.refuse p .range
  | some c => w.complete p .ok (statusWords (w.state.chan c)) false

/-! ## CLOSE_CHANNEL (R60 to R63) -/

/-- Why CLOSE_CHANNEL is refused, by its checks in order (R60). -/
def State.closeRefusal (s : State) (p : Port) : Option ResultCode :=
  match channelOperand (s.operand p 0) with
  | none => some .range
  | some c =>
    match (s.chan c).status with
    | .opened u => if maskHas u.destinations p || s.supervises p then none else some .notDestination
    | _ => some .channelClosed

/-- The channel becomes CLOSING under the port (R60, R141). -/
def Chan.closeUnder (x : Chan) (p : Port) : Chan :=
  match x.setup with
  | none => x
  | some u => { x with status := .closing u p }

/-- The first step of a close (R60): the channel becomes CLOSING, and its take waiters complete CHANNEL_CLOSED. -/
def Work.closeChannel (w : Work) (p : Port) : Work :=
  match w.state.closeRefusal p, channelOperand (w.state.operand p 0) with
  | some e, _ => w.refuse p e
  | none, none => w
  | none, some c =>
    let waiters := maskPorts (w.state.chan c).takeWaiters
    let w' := w.map fun s =>
      (s.modChan c fun x => { x.closeUnder p with takeWaiters := 0 }).modEngine p fun e =>
        { e with close := some { channel := c, returned := 0, discarded := 0 } }
    waiters.foldl (fun w q => w.complete q .channelClosed res0 true) w'

/-- The counts of a close after an entry's disposal (R61). -/
def CloseProgress.count (g : CloseProgress) (d : Disposal) : CloseProgress :=
  match d with
  | .kept => g
  | .returned => { g with returned := g.returned + 1 }
  | .discarded => { g with discarded := g.discarded + 1 }

/-- The channel is CLOSING with the port as its closer (R63). -/
def State.closingUnder (s : State) (c : ChanIx) (p : Port) : Bool := (s.chan c).closer == some p

/-- CLOSE_CHANNEL completes OK with its counts (R62, R63). -/
def Work.closeCompletes (w : Work) (p : Port) (g : CloseProgress) : Work :=
  w.complete p .ok (res4 (BitVec.ofNat 16 g.returned) (BitVec.ofNat 16 g.discarded) 0 0) false

/-- A close step offered by the port's engine (R61 to R63): a close ended in another way completes with its counts; else the head
entry is disposed of, or the empty queue makes it the last step. -/
def Work.closeStep (w : Work) (p : Port) : Work :=
  match (w.state.port p).engine.close with
  | none => w
  | some g =>
    if !w.state.closingUnder g.channel p then w.closeCompletes p g
    else
      match (w.state.chan g.channel).queue with
      | [] => (w.map fun s => s.lastCloseStep g.channel p).closeCompletes p g
      | b :: _ =>
        let d := w.state.disposalAt g.channel b
        (w.disposeEntry g.channel b).map fun s => s.modEngine p fun e => { e with close := some (g.count d) }

/-- The port's next close step finds the queue empty, so it is the last (R61). -/
def State.closeStepIsLast (s : State) (p : Port) : Bool :=
  (s.port p).engine.close.any fun g => s.closingUnder g.channel p && (s.chan g.channel).queue.isEmpty

/-- OPEN_CHANNEL (R46, R47). -/
def execOpenChannel (p : Port) (m : ReqMoment) (s : State) : Host.Outcome State Fault Refusal :=
  done (s.atMoment p .openChannel m (s.tableRequest p .openChannel fun w => w.openChannel p))

/-- POST (R48 to R55). -/
def execPost (p : Port) (m : ReqMoment) (s : State) : Host.Outcome State Fault Refusal :=
  done (s.atMoment p .post m (s.tableRequest p .post fun w => w.post p))

/-- TAKE (R56, R57). -/
def execTake (p : Port) (m : ReqMoment) (s : State) : Host.Outcome State Fault Refusal :=
  done (s.atMoment p .take m (s.tableRequest p .take fun w => w.take p))

/-- CHANNEL_STATUS (R66). -/
def execChannelStatus (p : Port) (m : ReqMoment) (s : State) : Host.Outcome State Fault Refusal :=
  done (s.atMoment p .channelStatus m (s.tableRequest p .channelStatus fun w => w.channelStatus p))

/-- CLOSE_CHANNEL (R60): its REQ write and its first step. -/
def execCloseChannel (p : Port) (m : ReqMoment) (s : State) : Host.Outcome State Fault Refusal :=
  done (s.atMoment p .closeChannel m (s.tableRequest p .closeChannel fun w => w.closeChannel p))

/-- CLOSE_STEP (R61, R63): a close step of the port's engine that is not the last one. -/
def execCloseStep (p : Port) (s : State) : Host.Outcome State Fault Refusal :=
  done (if s.closeStepIsLast p then s else s.tableOp (.re p) .closeStep fun w => w.closeStep p)

/-- CLOSE_LAST_STEP (R62): the close step of the port's engine that finds the queue empty. -/
def execCloseLastStep (p : Port) (s : State) : Host.Outcome State Fault Refusal :=
  done (if s.closeStepIsLast p then s.tableOp (.re p) .closeStep fun w => w.closeStep p else s)

end Sys2Proof.Machine
end

