-- ==== Sys2Proof/Machine/Leases.lean ====
section
/-! DEFINITION. Ends of waits, SET_LEASE, the Lease Monitor's ticks and expiry operations (Chapter 4). -/

namespace Sys2Proof.Machine

/-! ## Ends of waits (R34, R70) -/

/-- The port leaves the Claim Wait List and its take-waiter set, wherever it stands. -/
def State.leaveWaits (s : State) (p : Port) : State :=
  let t := s.setClaimWait (s.claimWait.erase p)
  match t.takeWaitOf p with
  | none => t
  | some c => t.leaveTakeWait c p

/-- A wait is removed and its request completes with a code (R34, R70). -/
def Work.endWait (w : Work) (p : Port) (c : ResultCode) : Work := (w.map fun s => s.leaveWaits p).complete p c res0 true

/-- CANCEL_OPERATION (R34): the granted cancel operation. -/
def execCancelOperation (p : Port) (s : State) : Host.Outcome State Fault Refusal :=
  done (s.tableOp (.re p) .cancel fun w => w.endWait p .cancelled)

/-- TIMEOUT_OPERATION (R70): the granted timeout operation. -/
def execTimeoutOperation (p : Port) (s : State) : Host.Outcome State Fault Refusal :=
  done (s.tableOp (.re p) .timeout fun w => w.endWait p .timeout)

/-! ## SET_LEASE (R72) -/

/-- The three policy values are replaced together (R72). -/
def Work.setLease (w : Work) (p : Port) : Work :=
  (w.map fun s => s.modSession p fun x =>
    { x with holdLease := s.operand p 0, readLease := s.operand p 1, grace := s.operand p 2 }).complete p .ok res0 false

/-- SET_LEASE (R72). -/
def execSetLease (p : Port) (m : ReqMoment) (s : State) : Host.Outcome State Fault Refusal :=
  done (s.atMoment p .setLease m (s.blockRequest p .setLease fun w => w.setLease p))

/-! ## The ms tick on wait timers (R67) -/

/-- A wait timer counts while its engine is WAITING, no CANCEL has stopped it, and its port is ACTIVE (R34, R67, R138). -/
def PortState.timerRuns (x : PortState) : Bool :=
  x.engine.state == .waiting && !x.engine.cancelMarker && x.session.state == .active

/-- A count lowered by one; at 0 the timer has expired and is gone (R67). -/
def WaitTimer.tick (t : WaitTimer) : Option WaitTimer :=
  match t with
  | .noLimit => some .noLimit
  | .count n => if n.toNat ≤ 1 then none else some (.count (n - 1))

/-- The ms tick on one port's wait timer (R67). -/
def PortState.tickTimer (x : PortState) : PortState :=
  if x.timerRuns then { x with engine := { x.engine with timer := x.engine.timer.bind WaitTimer.tick } } else x

/-- The port's wait timer expires at the next ms tick. -/
def PortState.timerDue (x : PortState) : Bool := x.timerRuns && x.engine.timer.any fun t => t.tick.isNone

/-! ## The ms tick on leases (R76) -/

/-- The lease of a role counts: it has one, its remaining time is above 0, and its port is ACTIVE (R76). -/
def State.leaseCounts (s : State) (e : Role) : Bool :=
  s.sessionState e.port == .active && e.lease.any fun l => l.remaining != 0

/-- The role runs out at the next ms tick. -/
def State.leaseDue (s : State) (e : Role) : Bool := s.leaseCounts e && e.lease.any fun l => l.remaining == 1

/-- The ms tick on one role (R76). -/
def State.tickRole (s : State) (e : Role) : Role :=
  if s.leaseCounts e then { e with lease := e.lease.map fun l => { l with remaining := l.remaining - 1 } } else e

/-- The ms tick on the roles of one record (R76). -/
def State.tickRoles (s : State) (r : BufRec) : BufRec :=
  { r with holder := r.holder.map s.tickRole, readers := r.readers.map s.tickRole }

/-- An entry placed at its position, in place of one that stands there (R76). -/
def expiryInsert : List (Position × ExpiryEntry) → Position → ExpiryEntry → List (Position × ExpiryEntry)
  | [], x, e => [(x, e)]
  | (y, f) :: rest, x, e =>
    if x.key < y.key then (x, e) :: (y, f) :: rest
    else if x = y then (x, e) :: rest
    else (y, f) :: expiryInsert rest x e

/-- The entry that stands at a position. -/
def expiryLookup (l : List (Position × ExpiryEntry)) (x : Position) : Option ExpiryEntry :=
  (l.find? fun e => e.1 == x).map Prod.snd

/-- The entries of the roles of a buffer that run out at this ms tick (R76). -/
def State.expiriesOf (s : State) (b : BufIx) : List (Position × ExpiryEntry) :=
  let r := s.buf b
  ((r.holder.toList.filter s.leaseDue).map fun h =>
      ({ buffer := b, role := .holder }, { generation := r.generation, holder := some h.port })) ++
    (r.readers.filter s.leaseDue).map fun e =>
      ({ buffer := b, role := .reader e.port }, { generation := r.generation, holder := none })

/-- The ms tick (R159): wait timers (R67) and leases (R76). -/
def State.millisecond (s : State) : State :=
  { s with
    ports := s.ports.map PortState.tickTimer
    buffers := s.buffers.map s.tickRoles
    expiry := (allBuffers.flatMap s.expiriesOf).foldl (fun l e => expiryInsert l e.1 e.2) s.expiry }

/-! ## Expiry operations (R77 to R79) -/

/-- The role at a position of the expiry list. -/
def State.roleAt (s : State) (x : Position) : Option Role :=
  match x.role with
  | .holder => (s.buf x.buffer).holder
  | .reader p => (s.buf x.buffer).readers.find? fun e => e.port == p

/-- The role an entry is for, when the four checks of R77 pass. -/
def State.expiredRole (s : State) (x : Position) (e : ExpiryEntry) : Option Role :=
  if (s.buf x.buffer).generation ≠ e.generation then none
  else
    match s.roleAt x with
    | none => none
    | some r =>
      if x.role = .holder && e.holder ≠ some r.port then none
      else if !(r.lease.any fun l => l.remaining == 0) then none
      else if s.sessionState r.port = .resetting then none
      else some r

/-- The role's record changed at its position. -/
def State.modRole (s : State) (x : Position) (f : Role → Role) : State :=
  match x.role with
  | .holder => s.modBuf x.buffer fun r => { r with holder := r.holder.map f }
  | .reader p => s.modBuf x.buffer fun r => { r with readers := r.readers.map fun e => if e.port = p then f e else e }

/-- A LEASE_WARN or RECLAIMED record: subject the buffer's handle as it stands, value the role (R78, R82). -/
def State.roleRecord (s : State) (k : RecordKind) (x : Position) : Record :=
  { kind := k, subject := s.handle x.buffer, value := BitVec.ofNat 16 (roleValue x.role) }

/-- A role is warned (R78). -/
def State.warnRole (s : State) (x : Position) (p : Port) : State :=
  (s.modRole x fun e =>
    { e with lease := some { remaining := (s.port p).session.grace, stage := .warned } }).place p (s.roleRecord .leaseWarn x)

/-- Reclaim of the role at a position (R80, R81). -/
def Work.reclaimAt (w : Work) (x : Position) (p : Port) : Work :=
  match x.role with
  | .holder => w.reclaimHolding p x.buffer
  | .reader _ => w.reclaimReader p x.buffer

/-- A role is reclaimed by expiry (R79): the RECLAIMED record, the procedure, and the service of the port's wait. -/
def Work.reclaimExpired (w : Work) (x : Position) (p : Port) : Work :=
  ((w.map fun s => s.place p (s.roleRecord .reclaimed x)).reclaimAt x p).serveWaiter p

/-- The operation on offer is granted, and its position is emptied (R77). -/
def State.takeEntry (s : State) (x : Position) : State :=
  { s with lmOffer := none, expiry := s.expiry.filter fun e => e.1 != x }

/-- The expiry operation (R77): it takes the entry at the offered position, and discards it, warns the role or reclaims it. -/
def Work.expiry (w : Work) : Work :=
  match w.state.lmOffer with
  | none => w
  | some x =>
    let entry := expiryLookup w.state.expiry x
    let w' := w.map fun s => s.takeEntry x
    match entry.bind (w'.state.expiredRole x) with
    | none => w'
    | some r =>
      if (r.lease.any fun l => l.stage == .normal) && (w'.state.port r.port).session.grace ≠ 0 then
        w'.map fun s => s.warnRole x r.port
      else w'.reclaimExpired x r.port

/-- EXPIRY_OPERATION (R77 to R79): the granted operation of the Lease Monitor. -/
def execExpiryOperation (s : State) : Host.Outcome State Fault Refusal := done (s.tableOp .lm .expiry Work.expiry)

end Sys2Proof.Machine
end

