-- ==== Sys2Proof/Machine/Windows.lean ====
section
/-! DEFINITION. MAP and UNMAP, window accesses, and the stream register (Chapter 5). -/

namespace Sys2Proof.Machine

/-! ## MAP and UNMAP (R87 to R89, R104) -/

/-- The mode of a MAP, bit 1 of OPD1 (R169). -/
def modeOperand (w : Word) : WindowMode := if w.getLsbD 1 then .ro else .rw

/-- Why MAP is refused, by its checks in order (R87). -/
def State.mapRefusal (s : State) (p : Port) : Option ResultCode :=
  let h := s.operand p 0
  match s.checkHandle h with
  | some e => some e
  | none =>
    let r := s.buf (handleIx h)
    if r.state ≠ .held && r.state ≠ .reading then some .badState
    else if !r.roleOf p then some .notHolder
    else if modeOperand (s.operand p 1) = .rw && !r.heldBy p then some .notHolder
    else none

/-- The stream is re-armed by a MAP of its window (R104); a stream access that waits at the bank keeps its own offset and leaves the pointer
as the re-arm set it. That one which still waits for its port's access path does the same is the model's choice (log 28). -/
def PortState.rearm (x : PortState) : PortState :=
  { x with
    stream := { x.stream with pointer := 0, prefixDue := x.stream.lengthPrefix && x.stream.direction == .read }
    access := x.access.map fun a => { a with rearmed := true } }

/-- The window is mapped, and the stream re-armed when it works through that window (R88). -/
def PortState.mapWindow (x : PortState) (sel : WindowSel) (v : View) : PortState :=
  let y := x.setWindow sel (.mapped v)
  if x.stream.select = sel then y.rearm else y

/-- The table operation of MAP (R87, R88). -/
def Work.map' (w : Work) (p : Port) : Work :=
  match w.state.mapRefusal p with
  | some e => w.refuse p e
  | none =>
    let h := w.state.operand p 0
    let o := w.state.operand p 1
    let v : View := { handle := h, mode := modeOperand o, length := (w.state.buf (handleIx h)).length }
    (w.map fun s => s.modPort p fun x => x.mapWindow (windowOperand o) v).complete p .ok res0 false

/-- UNMAP (R89): the window becomes UNMAPPED, whatever it was. -/
def Work.unmap (w : Work) (p : Port) : Work :=
  (w.map fun s => s.modPort p fun x => x.setWindow (windowOperand (s.operand p 0)) .unmapped).complete p .ok res0 false

/-- MAP (R87, R88). -/
def execMap (p : Port) (m : ReqMoment) (s : State) : Host.Outcome State Fault Refusal :=
  done (s.atMoment p .map m (s.tableRequest p .map fun w => w.map' p))

/-- UNMAP (R89). -/
def execUnmap (p : Port) (m : ReqMoment) (s : State) : Host.Outcome State Fault Refusal :=
  done (s.atMoment p .unmap m (s.blockRequest p .unmap fun w => w.unmap p))

/-! ## Bus accesses that need the array (R91, R165) -/

/-- The access waits for its bank grant under /PWAIT (R91 step 2). -/
def State.beginAccess (s : State) (p : Port) (k : AccessKind) (sel : WindowSel) (b : BufIx) (o : Nat) : State :=
  s.modPort p fun x =>
    { x with access := some { kind := k, window := sel, buffer := b, offset := o, rearmed := false, phase := .waiting } }

/-- A read is answered with a word on the data lines; the word is discarded when the strobe has risen early (R165). -/
def State.answerRead (s : State) (p : Port) (st : Strobe) (w : Word) : State :=
  match st with
  | .held => s.setData p w
  | .early => s

/-- The access is a read whose word is driven on the data lines (R165). -/
def AccessKind.answers : AccessKind → Bool
  | .windowRead .held | .streamRead .held => true
  | .windowRead .early | .streamRead .early | .windowWrite _ _ | .streamWrite _ _ => false

/-- A bus read: 0xFFFF while /RESET or /PRSTn is low (R137, R167); it cannot begin while an access is open (log 14). -/
def State.busRead (s : State) (p : Port) (st : Strobe) (body : State → State) : State :=
  if s.resetLow || (s.port p).prstLow then s.answerRead p st 0xFFFF#16
  else if (s.port p).access.isSome then s
  else body s

/-- A bus write: dropped while /RESET or /PRSTn is low (R137, R167); it cannot begin while an access is open (log 14). -/
def State.busWrite (s : State) (p : Port) (body : State → State) : State := if s.busReady p then body s else s

/-- A refused read: 0xFFFF on both lanes, and WINDOW_FAULT (R91, R92, R102). -/
def State.readFault (s : State) (p : Port) (st : Strobe) : State := (s.answerRead p st 0xFFFF#16).setWindowFault p

/-- The start of a window read (R91 steps 1 and 2). -/
def State.windowRead (s : State) (p : Port) (sel : WindowSel) (o : Nat) (st : Strobe) : State :=
  match (s.port p).window sel with
  | .mapped v => s.beginAccess p (.windowRead st) sel (handleIx v.handle) o
  | _ => s.readFault p st

/-- The start of a window write (R91, R94): with no byte enable it changes nothing. -/
def State.windowWrite (s : State) (p : Port) (sel : WindowSel) (o : Nat) (d : Word) (l : Lanes) : State :=
  if !l.lo && !l.hi then s
  else
    match (s.port p).window sel with
    | .mapped v => s.beginAccess p (.windowWrite d l) sel (handleIx v.handle) o
    | _ => s.setWindowFault p

/-- The start of a stream data read (R100, R102). -/
def State.streamRead (s : State) (p : Port) (st : Strobe) : State :=
  let x := s.port p
  match x.streamWindow with
  | .mapped v =>
    if x.stream.direction = .write then s.readFault p st
    else if x.stream.prefixDue then
      (s.answerRead p st (BitVec.ofNat 16 v.length)).modPort p fun x =>
        { x with stream := { x.stream with prefixDue := false } }
    else if x.stream.pointer < x.streamEnd then
      s.beginAccess p (.streamRead st) x.stream.select (handleIx v.handle) x.stream.pointer
    else s.readFault p st
  | _ => s.readFault p st

/-- The start of a stream data write (R101, R102): with no byte enable it changes nothing. -/
def State.streamWrite (s : State) (p : Port) (d : Word) (l : Lanes) : State :=
  let x := s.port p
  if !l.lo && !l.hi then s
  else
    match x.streamWindow with
    | .mapped v =>
      if x.stream.direction = .read || v.mode = .ro || 512 ≤ x.stream.pointer then s.setWindowFault p
      else s.beginAccess p (.streamWrite d l) x.stream.select (handleIx v.handle) x.stream.pointer
    | _ => s.setWindowFault p

/-- A write to the stream settings (R99): one with both byte enables sets the stream; any other changes nothing. -/
def State.settingsWrite (s : State) (p : Port) (d : Word) (l : Lanes) : State :=
  if l.lo && l.hi then s.modPort p fun x => { x with stream := streamOfSettings d } else s

/-! ## At the bank grant (R92, R93, R95, R96, R100, R101) -/

/-- The word at an even offset of a buffer, on the lanes of a byte order (R95). -/
def State.wordAt (s : State) (b : BufIx) (o : Nat) (order : ByteOrder) : Word :=
  lanesWord order (s.bufByte b o).byte (s.bufByte b (o + 1)).byte

/-- A byte of the word has a parity error (R96, R120). -/
def State.wordError (s : State) (b : BufIx) (o : Nat) : Bool := (s.bufByte b o).error || (s.bufByte b (o + 1)).error

/-- The bytes on the enabled lanes are written to the word, each with fresh parity (R93, R94, R119). -/
def State.writeWord (s : State) (b : BufIx) (o : Nat) (order : ByteOrder) (d : Word) (l : Lanes) : State :=
  let t := if evenEnabled order l then s.writeByte b o (evenByte order d) else s
  if oddEnabled order l then t.writeByte b (o + 1) (oddByte order d) else t

/-- The open read has been granted, with the word it will answer. -/
def State.accessGranted (s : State) (p : Port) (d : Word) : State :=
  s.modPort p fun x => { x with access := x.access.map fun a => { a with phase := .granted d } }

/-- The open write is accepted at its bank grant: the access is finished, and /PWAIT is released (R165). -/
def State.acceptWrite (s : State) (p : Port) : State := s.modPort p fun x => { x with access := none }

/-- The stream's pointer advances by 2 after an access carried out, unless a MAP has re-armed the stream (R100, R101, R104). -/
def State.advanceStream (s : State) (p : Port) (a : BusAccess) : State :=
  if a.rearmed then s
  else s.modPort p fun x => { x with stream := { x.stream with pointer := x.stream.pointer + 2 } }

/-- A read at its bank grant (R92, R96, R100): when its window still maps the buffer, the word is returned, and a parity error
places DATA_ERROR; otherwise it faults. -/
def State.readGranted (s : State) (p : Port) (stream : Bool) : State :=
  match (s.port p).access with
  | none => s
  | some a =>
    match (s.port p).window a.window with
    | .mapped v =>
      if handleIx v.handle = a.buffer then
        let t := s.accessGranted p (s.wordAt a.buffer a.offset (s.port p).config.byteOrder)
        let t := if stream then t.advanceStream p a else t
        if s.wordError a.buffer a.offset then
          t.place p { kind := .dataError, subject := v.handle, value := BitVec.ofNat 16 a.offset }
        else t
      else (s.accessGranted p 0xFFFF#16).setWindowFault p
    | _ => (s.accessGranted p 0xFFFF#16).setWindowFault p

/-- A write at its bank grant (R93, R101): it is written when its window still maps the buffer in mode RW; otherwise it is dropped
and faults. Either way the write is accepted (R165). -/
def State.writeGranted (s : State) (p : Port) (stream : Bool) (d : Word) (l : Lanes) : State :=
  match (s.port p).access with
  | none => s
  | some a =>
    match (s.port p).window a.window with
    | .mapped v =>
      if handleIx v.handle = a.buffer && v.mode = .rw then
        let t := (s.writeWord a.buffer a.offset (s.port p).config.byteOrder d l).acceptWrite p
        if stream then t.advanceStream p a else t
      else (s.acceptWrite p).setWindowFault p
    | _ => (s.acceptWrite p).setWindowFault p

/-- The data and byte enables of the port's open write. -/
def State.accessData (s : State) (p : Port) : Word × Lanes :=
  match (s.port p).access with
  | some { kind := .windowWrite d l, .. } => (d, l)
  | some { kind := .streamWrite d l, .. } => (d, l)
  | _ => (0, { lo := false, hi := false })

/-- A read that has been carried out is finished on the bus: /PWAIT is released, and its word is on the data lines unless its strobe has
risen (R165). -/
def State.finishAccess (s : State) (p : Port) : State :=
  s.modPort p fun x =>
    match x.access with
    | some { kind := k, phase := .granted d, .. } =>
      { x with access := none, dataBus := if k.answers then d else x.dataBus }
    | _ => x

/-- A bank grant at one of its two moments (R126). -/
def State.atBankMoment (s : State) (p : Port) (what : PathRequest) (m : BankMoment) (granted finished : State → State) : State :=
  match m with
  | .granted => s.bankGrant p what granted
  | .carriedOut => s.bankDone p what finished

/-! ## The commands -/

/-- WINDOW_READ (R91): a read at word `word` of a window. -/
def execWindowRead (p : BusRead) (w : WindowSel) (word : BitVec 8) (s : State) : Host.Outcome State Fault Refusal :=
  done (s.busRead p.port p.strobe fun s => s.windowRead p.port w (2 * word.toNat) p.strobe)

/-- WINDOW_READ_GRANT (R92). -/
def execWindowReadGrant (p : Port) (m : BankMoment) (s : State) : Host.Outcome State Fault Refusal :=
  done (s.atBankMoment p .windowRead m (fun s => s.readGranted p false) fun s => s.finishAccess p)

/-- WINDOW_WRITE (R91, R94). -/
def execWindowWrite (p : Port) (w : WindowSel) (word : BitVec 8) (data : Word) (lanes : Lanes) (s : State) :
    Host.Outcome State Fault Refusal :=
  done (s.busWrite p fun s => s.windowWrite p w (2 * word.toNat) data lanes)

/-- WINDOW_WRITE_GRANT (R93). -/
def execWindowWriteGrant (p : Port) (m : BankMoment) (s : State) : Host.Outcome State Fault Refusal :=
  done (s.atBankMoment p .windowWrite m (fun t => t.writeGranted p false (s.accessData p).1 (s.accessData p).2) id)

/-- STREAM_SETTINGS_WRITE (R99): with both byte enables it sets and re-arms the stream; else it changes nothing. -/
def execStreamSettingsWrite (p : Port) (data : Word) (lanes : Lanes) (s : State) : Host.Outcome State Fault Refusal :=
  done (s.busWrite p fun s => s.settingsWrite p data lanes)

/-- STREAM_DATA_READ (R100, R102, R103): a read of the stream data register, by its address or under /PDACK. -/
def execStreamDataRead (p : BusRead) (s : State) : Host.Outcome State Fault Refusal :=
  done (s.busRead p.port p.strobe fun s => s.streamRead p.port p.strobe)

/-- STREAM_READ_GRANT (R100). -/
def execStreamReadGrant (p : Port) (m : BankMoment) (s : State) : Host.Outcome State Fault Refusal :=
  done (s.atBankMoment p .streamRead m (fun s => s.readGranted p true) fun s => s.finishAccess p)

/-- STREAM_DATA_WRITE (R101 to R103): a write of the stream data register, by its address or under /PDACK. -/
def execStreamDataWrite (p : Port) (data : Word) (lanes : Lanes) (s : State) : Host.Outcome State Fault Refusal :=
  done (s.busWrite p fun s => s.streamWrite p data lanes)

/-- STREAM_WRITE_GRANT (R101). -/
def execStreamWriteGrant (p : Port) (m : BankMoment) (s : State) : Host.Outcome State Fault Refusal :=
  done (s.atBankMoment p .streamWrite m (fun t => t.writeGranted p true (s.accessData p).1 (s.accessData p).2) id)

end Sys2Proof.Machine
end

