-- ==== Sys2Proof/Machine/BulkMover.lean ====
section
/-! DEFINITION. FILL, COPY and the zero fill: start steps, bursts and the end step (Chapter 6). -/

namespace Sys2Proof.Machine

/-! ## Start steps (R106 to R109) -/

/-- An offset and a count of a range within a buffer (R106 check 3, R107 check 4). -/
def rangeFits (o n : Nat) : Bool := o % 2 = 0 && o ≤ 510 && n % 2 = 0 && 2 ≤ n && n ≤ 512 && o + n ≤ 512

/-- Why FILL is refused, by its checks in order (R106). -/
def State.fillRefusal (s : State) (p : Port) : Option ResultCode :=
  let h := s.operand p 0
  match s.checkHandle h with
  | some e => some e
  | none =>
    if !(s.buf (handleIx h)).heldBy p then some .notHolder
    else if !rangeFits (s.operand p 1).toNat (s.operand p 2).toNat then some .range
    else none

/-- The first of two handles' failures (R5, R107 check 1). -/
def State.checkHandles (s : State) (h h' : Word) : Option ResultCode := (s.checkHandle h).or (s.checkHandle h')

/-- Why COPY is refused, by its checks in order (R107). -/
def State.copyRefusal (s : State) (p : Port) : Option ResultCode :=
  let src := s.operand p 0
  let dst := s.operand p 2
  match s.checkHandles src dst with
  | some e => some e
  | none =>
    if !(s.buf (handleIx src)).roleOf p then some .notHolder
    else if !(s.buf (handleIx dst)).heldBy p then some .notHolder
    else if !(rangeFits (s.operand p 1).toNat (s.operand p 4).toNat && rangeFits (s.operand p 3).toNat (s.operand p 4).toNat)
    then some .range
    else none

/-- The buffers a bulk operation touches, each once: its destination, and a source that is another buffer (R13, R108). -/
def Bulk.touches (m : Bulk) : List BufIx :=
  match m.source with
  | some r => if r.buffer = m.destination.buffer then [m.destination.buffer] else [m.destination.buffer, r.buffer]
  | none => [m.destination.buffer]

/-- The start step of a bulk operation (R108): the bulk counts of the buffers it touches rise by one, and the mover's record is set
up. -/
def State.startBulk (s : State) (p : Port) (m : Bulk) : State :=
  (m.touches.foldl (fun t b => t.modBuf b fun r => { r with bulkCount := r.bulkCount + 1 }) s).modEngine p fun e =>
    { e with bulk := some m }

/-- A range of a buffer at its present generation. -/
def State.rangeAt (s : State) (b : BufIx) (o : Nat) : BulkRange :=
  { buffer := b, generation := (s.buf b).generation, offset := o }

/-- A FILL's progress record (R108, R111): the pattern is fixed by the port's byte order. -/
def State.fillRecord (s : State) (p : Port) : Bulk :=
  let order := (s.port p).config.byteOrder
  { kind := .fill, destination := s.rangeAt (handleIx (s.operand p 0)) (s.operand p 1).toNat, source := none,
    count := (s.operand p 2).toNat, direction := .ascending, patternEven := evenByte order (s.operand p 3),
    patternOdd := oddByte order (s.operand p 3), bytesDone := 0, abort := false, phase := .moving, readRun := none }

/-- A COPY's progress record (R108, R110): ASCENDING when the destination offset lies below the source offset. -/
def State.copyRecord (s : State) (p : Port) : Bulk :=
  let so := (s.operand p 1).toNat
  let d := (s.operand p 3).toNat
  { kind := .copy, destination := s.rangeAt (handleIx (s.operand p 2)) d,
    source := some (s.rangeAt (handleIx (s.operand p 0)) so), count := (s.operand p 4).toNat,
    direction := if d < so then .ascending else .descending, patternEven := 0, patternOdd := 0, bytesDone := 0,
    abort := false, phase := .moving, readRun := none }

/-- The zero fill's progress record for a claimed handle (R109). -/
def State.zeroRecord (s : State) (h : Word) : Bulk :=
  { kind := .zeroFill, destination := s.rangeAt (handleIx h) 0, source := none, count := 512, direction := .ascending,
    patternEven := 0, patternOdd := 0, bytesDone := 0, abort := false, phase := .moving, readRun := none }

/-- FILL's start step (R106, R108). -/
def Work.fill (w : Work) (p : Port) : Work :=
  match w.state.fillRefusal p with
  | some e => w.refuse p e
  | none => w.map fun s => s.startBulk p (s.fillRecord p)

/-- COPY's start step (R107, R108). -/
def Work.copy (w : Work) (p : Port) : Work :=
  match w.state.copyRefusal p with
  | some e => w.refuse p e
  | none => w.map fun s => s.startBulk p (s.copyRecord p)

/-- The buffer of the claimed handle is HELD by the port with the handle's generation (R109). -/
def State.claimedStands (s : State) (p : Port) (h : Word) : Bool :=
  (s.buf (handleIx h)).heldBy p && (s.buf (handleIx h)).generation == handleGen h

/-- The zero fill's start step (R109). -/
def Work.zeroFillStart (w : Work) (p : Port) : Work :=
  match (w.state.port p).engine.claimed with
  | none => w
  | some h =>
    if w.state.claimedStands p h then w.map fun s => s.startBulk p (s.zeroRecord h)
    else w.complete p .aborted (res1 h) true

/-! ## Bursts (R110 to R114) -/

/-- The port's progress record changed. -/
def State.modBulk (s : State) (p : Port) (f : Bulk → Bulk) : State := s.modEngine p fun e => { e with bulk := e.bulk.map f }

/-- A burst has been written: bytes done rises, and the mover stops with OK after the last one (R111, R112, R115). -/
def Bulk.wrote (m : Bulk) (n : Nat) : Bulk :=
  let m' := { m with bytesDone := m.bytesDone + n, readRun := none }
  if m.count ≤ m'.bytesDone then m'.stop .ok else m'

/-- The run of pattern bytes from an offset (R111). -/
def Bulk.patternRun (m : Bulk) (o n : Nat) : List Byte :=
  (List.range n).map fun i => if (o + i) % 2 = 0 then m.patternEven else m.patternOdd

/-- A FILL or zero-fill burst at its grant (R111). -/
def State.fillGranted (s : State) (p : Port) : State :=
  match (s.port p).engine.bulk with
  | none => s
  | some m =>
    if m.abort then s.modBulk p fun m => m.stop .aborted
    else
      let o := m.burstStart m.destination
      (s.writeRun m.destination.buffer o (m.patternRun o m.burstLength)).modBulk p fun m => m.wrote m.burstLength

/-- A COPY burst's source read at its grant (R112 steps 1 and 2). -/
def State.copyReadGranted (s : State) (p : Port) : State :=
  match (s.port p).engine.bulk with
  | none => s
  | some m =>
    if m.abort then s.modBulk p fun m => m.stop .aborted
    else
      match m.source with
      | none => s
      | some r =>
        let run := s.readRun r.buffer (m.burstStart r) m.burstLength
        if run.any Stored.error then s.modBulk p fun m => m.stop .dataError
        else s.modBulk p fun m => { m with readRun := some (run.map Stored.byte) }

/-- A COPY burst's destination write at its grant (R112 step 3). -/
def State.copyWriteGranted (s : State) (p : Port) : State :=
  match (s.port p).engine.bulk with
  | none => s
  | some m =>
    if m.abort then s.modBulk p fun m => m.stop .aborted
    else
      (s.writeRun m.destination.buffer (m.burstStart m.destination) (m.readRun.getD [])).modBulk p fun m =>
        m.wrote m.burstLength

/-! ## The end step (R115) -/

/-- The value of a bulk outcome as a result code. -/
def BulkOutcome.code : BulkOutcome → ResultCode
  | .ok => .ok
  | .aborted => .aborted
  | .dataError => .dataError

/-- The mover's outcome; OK while it has none. -/
def Bulk.outcome (m : Bulk) : BulkOutcome :=
  match m.phase with
  | .moving => .ok
  | .stopped o => o

/-- The DRAINING buffers whose bulk count reaches 0 in the end step, in the order they enter FREE. The spec gives no order when
both buffers of a COPY do: it is a free value (log 17). -/
def State.drained (s : State) (m : Bulk) : List BufIx :=
  match m.touches.filter fun b => (s.buf b).state == .draining && (s.buf b).bulkCount == 1 with
  | [d, r] => if Config.sourceFreedFirst s.freeDraws then [r, d] else [d, r]
  | bs => bs

/-- The end step lowers the bulk counts and frees the drained buffers (R115 steps 1 and 2). -/
def Work.endBulk (w : Work) (p : Port) (m : Bulk) : Work :=
  let freed := w.state.drained m
  let w' := w.map fun s =>
    let t := m.touches.foldl (fun t b => t.modBuf b fun r => { r with bulkCount := r.bulkCount - 1 }) s
    (t.setFreeDraws (if freed.length = 2 then t.freeDraws + 1 else t.freeDraws)).modEngine p fun e =>
      { e with bulk := none }
  freed.foldl Work.enterFree w'

/-- The result words at the end of a bulk operation (R115): the handle for a zero fill, else bytes done. -/
def bulkWords (e : Engine) (m : Bulk) : Vector Word 4 :=
  match m.kind with
  | .zeroFill => res1 (e.claimed.getD 0)
  | _ => res1 (BitVec.ofNat 16 m.bytesDone)

/-- The end step offered by the engine (R115): the request completes with the outcome. -/
def Work.endStepEngine (w : Work) (p : Port) : Work :=
  match (w.state.port p).engine.bulk with
  | none => w
  | some m => (w.endBulk p m).complete p m.outcome.code (bulkWords (w.state.port p).engine m) true

/-- The end step offered by the Teardown Unit (R117, R143): nothing completes. -/
def Work.endStepTeardown (w : Work) (p : Port) : Work :=
  match (w.state.port p).engine.bulk with
  | none => w
  | some m => (w.endBulk p m).map fun s => s.modTeardown p fun t => { t with endOwed := false }

/-! ## The commands -/

/-- FILL (R106): its REQ write and its start step. -/
def execFill (p : Port) (m : ReqMoment) (s : State) : Host.Outcome State Fault Refusal :=
  done (s.atMoment p .fill m (s.tableRequest p .fill fun w => w.fill p))

/-- COPY (R107): its REQ write and its start step. -/
def execCopy (p : Port) (m : ReqMoment) (s : State) : Host.Outcome State Fault Refusal :=
  done (s.atMoment p .copy m (s.tableRequest p .copy fun w => w.copy p))

/-- ZERO_FILL_START (R109). -/
def execZeroFillStart (p : Port) (s : State) : Host.Outcome State Fault Refusal :=
  done (s.tableOp (.re p) .zeroFillStart fun w => w.zeroFillStart p)

/-- FILL_BURST (R111). -/
def execFillBurst (p : Port) (m : BankMoment) (s : State) : Host.Outcome State Fault Refusal :=
  done (s.atBankMoment p .fillBurst m (fun s => s.fillGranted p) id)

/-- COPY_BURST_READ (R112). -/
def execCopyBurstRead (p : Port) (m : BankMoment) (s : State) : Host.Outcome State Fault Refusal :=
  done (s.atBankMoment p .copyRead m (fun s => s.copyReadGranted p) id)

/-- COPY_BURST_WRITE (R112). -/
def execCopyBurstWrite (p : Port) (m : BankMoment) (s : State) : Host.Outcome State Fault Refusal :=
  done (s.atBankMoment p .copyWrite m (fun s => s.copyWriteGranted p) id)

/-- END_STEP (R115, R143): offered by the port's engine, or by its Teardown Unit once it owes the end step. -/
def execEndStep (p : Port) (s : State) : Host.Outcome State Fault Refusal :=
  done (if s.grants (.tu p) .endStep then s.tableOp (.tu p) .endStep fun w => w.endStepTeardown p
    else s.tableOp (.re p) .endStep fun w => w.endStepEngine p)

end Sys2Proof.Machine
end

