-- ==== Sys2Proof/Machine/Sessions.lean ====
section
/-! DEFINITION. ATTACH, QUIESCE, RESUME and DETACH (8.2), and the port reset input (8.3). -/

namespace Sys2Proof.Machine

/-- The port's session state changes. -/
def State.setSession (s : State) (p : Port) (x : SessionState) : State := s.modSession p fun y => { y with state := x }

/-- A session change that completes its request OK: the new state, then PEER_STATE to each other attached port (R132 to R134,
R136). -/
def Work.changeSession (w : Work) (p : Port) (x : SessionState) : Work :=
  (w.map fun s => (s.setSession p x).placePeerState p x).complete p .ok res0 false

/-- The port becomes RESETTING and its Teardown Unit begins with the fence step (R135, R137, R139). -/
def State.startTeardown (s : State) (p : Port) : State :=
  (s.setSession p .resetting).modTeardown p fun t => { t with phase := .fence, nextBuffer := 0, nextChannel := 0 }

/-- DETACH (R135): the request does not complete; the engine stays BUSY with it until the fence step. -/
def Work.detach (w : Work) (p : Port) : Work := w.map fun s => s.startTeardown p

/-- ATTACH (R132). -/
def execAttach (p : Port) (m : ReqMoment) (s : State) : Host.Outcome State Fault Refusal :=
  done (s.atMoment p .attach m (s.blockRequest p .attach fun w => w.changeSession p .active))

/-- QUIESCE (R133). -/
def execQuiesce (p : Port) (m : ReqMoment) (s : State) : Host.Outcome State Fault Refusal :=
  done (s.atMoment p .quiesce m (s.blockRequest p .quiesce fun w => w.changeSession p .quiesced))

/-- RESUME (R134). -/
def execResume (p : Port) (m : ReqMoment) (s : State) : Host.Outcome State Fault Refusal :=
  done (s.atMoment p .resume m (s.blockRequest p .resume fun w => w.changeSession p .active))

/-- DETACH (R135). -/
def execDetach (p : Port) (m : ReqMoment) (s : State) : Host.Outcome State Fault Refusal :=
  done (s.atMoment p .detach m (s.blockRequest p .detach fun w => w.detach p))

/-! ## The port reset input (R123, R137) -/

/-- The request is a window or stream access, which a port reset withdraws; a burst is not withdrawn (R123). -/
def PathRequest.isAccess : PathRequest → Bool
  | .windowRead | .windowWrite | .streamRead | .streamWrite => true
  | .fillBurst | .copyRead | .copyWrite => false

/-- An open bus access ends as a read of 0xFFFF or a dropped write, without waiting for its bank (R137, R167); a read whose strobe has
risen drives no data (R165). -/
def PortState.endAccess (x : PortState) : PortState :=
  { x with
    access := none
    dataBus := if x.access.any fun a => a.kind.answers then 0xFFFF#16 else x.dataBus }

/-- The path's request is a window or stream access that its bank has not granted. -/
def State.withdrawable (s : State) (p : Port) : Bool :=
  (s.port p).path.any fun r => r.what.isAccess && (s.arbiter r.bank).current != some (.port p)

/-- An ungranted window or stream access is withdrawn from its Bank Arbiter, and the path becomes FREE (R123). -/
def State.withdrawAccess (s : State) (p : Port) : State :=
  if s.withdrawable p then s.modPort p fun x => { x with path := none } else s

/-- /PRSTn is driven to a level. -/
def State.setPrst (s : State) (p : Port) (low : Bool) : State := s.modPort p fun x => { x with prstLow := low }

/-- /PRSTn falls (R137): the port's bus access ends, and an attached port becomes RESETTING with SESSION_CHANGE set. -/
def State.prstFalls (s : State) (p : Port) : State :=
  let t := ((s.withdrawAccess p).modPort p PortState.endAccess).setPrst p true
  if s.attached p then (t.startTeardown p).setSessionChange p else t

/-- PRST_FALLING (R137): /PRSTn falls; when it is low already nothing falls. -/
def execPrstFalling (p : Port) (s : State) : Host.Outcome State Fault Refusal :=
  done (if (s.port p).prstLow then s else s.prstFalls p)

/-- PRST_RISING (R137): only the level changes. -/
def execPrstRising (p : Port) (s : State) : Host.Outcome State Fault Refusal := done (s.setPrst p false)

end Sys2Proof.Machine
end

