-- ==== Sys2Proof/Machine/Teardown.lean ====
section
/-! DEFINITION. The steps of a teardown: fence, role, channel and final step (8.4). -/

namespace Sys2Proof.Machine

/-! ## The fence step (R141) -/

/-- The engine at the fence step: its request and all it held for it are gone, RSP reads BUSY with result NONE, and a bulk
operation in flight is kept with its abort mark set (R22, R141 changes 1 and 3). The result words read 0 (log 18). -/
def Engine.fenced (e : Engine) : Engine :=
  { e with
    state := .busy, request := none, operands := none, result := .none, res := res0, timer := none, cancelMarker := false,
    bulk := e.bulk.map fun m => { m with abort := true }, close := none, claimed := none }

/-- The port's own state at the fence step: the engine, both windows UNMAPPED, the stream at its reset values (R141 changes 1, 3
and 4). -/
def PortState.fenced (x : PortState) : PortState :=
  { x with engine := x.engine.fenced, windowA := .unmapped, windowB := .unmapped, stream := Stream.reset }

/-- The channel is UNICAST with the port as its destination. -/
def Chan.unicastTo (x : Chan) (p : Port) : Bool := x.setup.any fun u => u.kind == .unicast && maskHas u.destinations p

/-- Each UNICAST channel to the port becomes CLOSING with the port as closer (R63, R141 change 5). -/
def State.closeUnicasts (s : State) (p : Port) : State :=
  { s with channels := s.channels.map fun x => if x.unicastTo p then x.closeUnder p else x }

/-- The close the engine was driving, when its channel is still CLOSING under the port (R141 change 6). -/
def State.takenOver (s : State) (p : Port) (g : Option CloseProgress) : Option ChanIx :=
  match g with
  | some g => if s.closingUnder g.channel p then some g.channel else none
  | none => none

/-- The unit's progress once the fence step is done (R141). -/
def Teardown.fenced (t : Teardown) (inHand : Option ChanIx) (owed : Bool) : Teardown :=
  { t with phase := .roles, inHand := inHand, inHandTakenOver := true, endOwed := owed }

/-- The fence step (R141). -/
def State.fence (s : State) (p : Port) : State :=
  let e := (s.port p).engine
  let t := ((s.leaveWaits p).modPort p PortState.fenced).closeUnicasts p
  (t.modTeardown p fun u => u.fenced (t.takenOver p e.close) e.bulk.isSome).placePeerState p .resetting

/-! ## The final step (R145) -/

/-- The port's own state after the final step: the queue emptied and its latch EMPTY, PCFG cleared but for the byte order, the policy
0, SESSION_CHANGE set alone, the engine as after device reset, DETACHED, and the unit IDLE (R22, R145, R148). -/
def PortState.finished (x : PortState) : PortState :=
  { x with
    notes := NoteQueue.reset
    config := { PortConfig.reset with byteOrder := x.config.byteOrder }
    session :=
      { state := .detached, holdLease := 0, readLease := 0, grace := 0, sessionChange := true, refused := false,
        windowFault := false }
    engine := Engine.reset
    teardown := Teardown.reset }

/-- The final step (R145). -/
def State.finishTeardown (s : State) (p : Port) : State := (s.modPort p PortState.finished).placePeerState p .detached

/-! ## Channel steps (R144) -/

/-- The channel concerns the port: it is CLOSING with the port as closer, or FANOUT and lists the port. -/
def Chan.concerns (x : Chan) (p : Port) : Bool :=
  x.closer == some p || x.setup.any fun u => u.kind == .fanout && maskHas u.destinations p

/-- The first channel from the next channel upward that concerns the port. -/
def State.searchChannel (s : State) (p : Port) : Option ChanIx :=
  allChannels.find? fun c => (s.port p).teardown.nextChannel ≤ c.val && (s.chan c).concerns p

/-- The channel in hand is done with; the next channel moves past it when the search found it (R144). -/
def Teardown.letGo (t : Teardown) (c : ChanIx) : Teardown :=
  { t with inHand := none, nextChannel := if t.inHandTakenOver then t.nextChannel else c.val + 1 }

/-- A channel step on a channel in hand (R144 rows 1 to 3). -/
def Work.channelInHand (w : Work) (p : Port) (c : ChanIx) : Work :=
  if !w.state.closingUnder c p then w.map fun s => s.modTeardown p fun t => t.letGo c
  else
    match (w.state.chan c).queue with
    | [] => w.map fun s => (s.lastCloseStep c p).modTeardown p fun t => t.letGo c
    | b :: _ => w.disposeEntry c b

/-- A channel step on the channel the search found: a channel CLOSING under the port is taken in hand and acted on; from a FANOUT
channel the port is removed (R144 rows 4 and 5). -/
def Work.channelFound (w : Work) (p : Port) (c : ChanIx) : Work :=
  if w.state.closingUnder c p then
    (w.map fun s => s.modTeardown p fun t => { t with inHand := some c, inHandTakenOver := false }).channelInHand p c
  else (w.removeDestination c p).map fun s => s.modTeardown p fun t => { t with nextChannel := c.val + 1 }

/-- No channel concerns the port any more: the phase becomes FINAL, and the same step goes on as the final step unless an end step is
owed (R144 row 6). -/
def Work.channelsDone (w : Work) (p : Port) : Work :=
  if (w.state.port p).teardown.endOwed then w.map fun s => s.modTeardown p fun t => { t with phase := .final }
  else w.map fun s => s.finishTeardown p

/-- The channel step (R144). -/
def Work.channelStep (w : Work) (p : Port) : Work :=
  match (w.state.port p).teardown.inHand with
  | some c => w.channelInHand p c
  | none =>
    match w.state.searchChannel p with
    | some c => w.channelFound p c
    | none => w.channelsDone p

/-! ## Role steps (R142) -/

/-- The first buffer from the next buffer upward in which the port has a role. -/
def State.searchRole (s : State) (p : Port) : Option BufIx :=
  allBuffers.find? fun b => (s.port p).teardown.nextBuffer ≤ b.val && (s.buf b).roleOf p

/-- The role step reclaims the role found, without a record (R142). -/
def Work.reclaimFound (w : Work) (p : Port) (b : BufIx) : Work :=
  (if (w.state.buf b).heldBy p then w.reclaimHolding p b else w.reclaimReader p b).map fun s =>
    s.modTeardown p fun t => { t with nextBuffer := b.val + 1 }

/-- The role step (R142): when it finds no role it goes on as a channel step. -/
def Work.roleStep (w : Work) (p : Port) : Work :=
  match w.state.searchRole p with
  | some b => w.reclaimFound p b
  | none => (w.map fun s => s.modTeardown p fun t => { t with phase := .channels }).channelStep p

/-! ## The commands -/

/-- FENCE_STEP (R141). -/
def execFenceStep (p : Port) (s : State) : Host.Outcome State Fault Refusal :=
  done (s.tableOp (.tu p) .fence fun w => w.map fun s => s.fence p)

/-- The unit is in phase ROLES and its next step finds no role, so that step goes on as a channel step (R142). -/
def State.rolesOver (s : State) (p : Port) : Bool :=
  (s.port p).teardown.phase == .roles && (s.searchRole p).isNone

/-- A channel step of the unit finds nothing to do and owes no end step, so that step goes on as the final step (R144). -/
def State.channelsOver (s : State) (p : Port) : Bool :=
  (s.port p).teardown.inHand.isNone && (s.searchChannel p).isNone && !(s.port p).teardown.endOwed

/-- The unit's granted role step (R142). -/
def State.runRoleStep (s : State) (p : Port) : State := s.tableOp (.tu p) .role fun w => w.roleStep p

/-- The unit's granted channel step (R144). -/
def State.runChannelStep (s : State) (p : Port) : State := s.tableOp (.tu p) .channel fun w => w.channelStep p

/-- ROLE_STEP (R142). -/
def execRoleStep (p : Port) (s : State) : Host.Outcome State Fault Refusal := done (s.runRoleStep p)

/-- CHANNEL_STEP (R144): a step of phase CHANNELS, or the role step that goes on as one (log 23). -/
def execChannelStep (p : Port) (s : State) : Host.Outcome State Fault Refusal :=
  done (if s.rolesOver p then s.runRoleStep p else s.runChannelStep p)

/-- FINAL_STEP (R145): the step of phase FINAL, or the role or channel step that goes on as the final step (log 23). -/
def execFinalStep (p : Port) (s : State) : Host.Outcome State Fault Refusal :=
  done
    (match (s.port p).teardown.phase with
    | .roles => if s.rolesOver p && s.channelsOver p then s.runRoleStep p else s
    | .channels => if s.channelsOver p then s.runChannelStep p else s
    | .final => s.tableOp (.tu p) .final fun w => w.map fun s => s.finishTeardown p
    | .idle | .fence => s)

end Sys2Proof.Machine
end

