-- ==== Sys2Proof/Machine/Time.lean ====
section
/-! DEFINITION. The Time Base (10.2) and the Refresh Engine (7.5): ticks, interval expiries, row refreshes. -/

namespace Sys2Proof.Machine

/-! ## Interval expiries (R128, R130) -/

/-- One bank at an interval expiry: its debt rises by one, or at 8 the refresh is missed and the flag set (R128, R130). -/
def RefreshBank.expire (r : RefreshBank) : RefreshBank :=
  if r.debt < 8 then { r with debt := r.debt + 1 } else { r with missed := true }

/-- The banks that miss a refresh at an interval expiry, in ascending number (R130). -/
def State.missingBanks (s : State) : List BankIx := allBanks.filter fun k => 8 ≤ (s.bankRefresh k).debt

/-- An interval expiry (R128, R130): every bank at once, then one REFRESH_MISSED record per missing bank to each attached port. -/
def State.intervalExpiry (s : State) : State :=
  s.missingBanks.foldl (fun t k => t.placeAll t.attachedPorts (mkRecord .refreshMissed k.val 0))
    { s with refresh := s.refresh.map RefreshBank.expire }

/-! ## Ticks (R127, R159) -/

/-- A µs tick ages every row, and a row that has gone unrefreshed for more than the retention time may have lost bits: its contents become
undefined afresh (R130, 11.6; log 8). -/
def State.ageRows (s : State) : State :=
  ({ s with rows := s.rows.map fun r => { r with age := r.age + 1 } } : State).loseRows fun r =>
    Config.retentionTicks < r.age

/-- The µs tick on the interval counter (R127): the tick that brings it to REFRESH_INTERVAL is an interval expiry. -/
def State.tickInterval (s : State) : State :=
  if s.refreshInterval ≤ s.intervalCounter + 1 then ({ s with intervalCounter := 0 } : State).intervalExpiry
  else { s with intervalCounter := s.intervalCounter + 1 }

/-- The µs tick on the ms counter (R159): the tick that brings it to 1000 gives a ms tick. -/
def State.tickMs (s : State) : State :=
  if 1000 ≤ s.msCounter + 1 then ({ s with msCounter := 0 } : State).millisecond
  else { s with msCounter := s.msCounter + 1 }

/-- A µs tick (R159): the divider returns to 0, and the tick drives the rows' retention, the interval counter and the ms counter. -/
def State.microsecond (s : State) : State := ({ s with usDivider := 0 } : State).ageRows.tickInterval.tickMs

/-- One CLK cycle (R159): the divider rises, and the cycle that brings it to TIMEBASE_DIV gives a µs tick; it is held while /RESET is
low. -/
def State.clkCycle (s : State) : State :=
  if s.resetLow then s
  else if s.timebaseDiv ≤ s.usDivider + 1 then s.microsecond
  else { s with usDivider := s.usDivider + 1 }

/-- The µs tick, when it is the one that brings an event about; otherwise the event does not occur (log 6). -/
def State.tickWhen (s : State) (due : Bool) : State := if !s.resetLow && due then s.microsecond else s

/-- The next µs tick gives a ms tick. -/
def State.msDue (s : State) : Bool := 1000 ≤ s.msCounter + 1

/-- The next µs tick is an interval expiry. -/
def State.intervalDue (s : State) : Bool := s.refreshInterval ≤ s.intervalCounter + 1

/-- The role of a buffer that a LEASE_RUN_OUT names. -/
def State.leaseRole (s : State) (b : BufIx) (r : LeaseRole) : Option Role := s.roleAt { buffer := b, role := r }

/-- US_TICK (R159): the CLK cycles up to the next µs tick pass, and the tick is given (log 5). -/
def execUsTick (s : State) : Host.Outcome State Fault Refusal := done (s.tickWhen true)

/-- MS_TICK (R159): the µs tick that brings the ms counter to 1000 (log 6). -/
def execMsTick (s : State) : Host.Outcome State Fault Refusal := done (s.tickWhen s.msDue)

/-- INTERVAL_EXPIRY (R128): the µs tick that brings the interval counter to REFRESH_INTERVAL (log 6). -/
def execIntervalExpiry (s : State) : Host.Outcome State Fault Refusal := done (s.tickWhen s.intervalDue)

/-- WAIT_TIMER_EXPIRY (R67): the tick that brings the port's wait timer to 0 (log 6). -/
def execWaitTimerExpiry (p : Port) (s : State) : Host.Outcome State Fault Refusal :=
  done (s.tickWhen (s.msDue && (s.port p).timerDue))

/-- LEASE_RUN_OUT (R76): the tick that brings the role's remaining time to 0 (log 6). -/
def execLeaseRunOut (b : BufIx) (r : LeaseRole) (s : State) : Host.Outcome State Fault Refusal :=
  done (s.tickWhen (s.msDue && (s.leaseRole b r).any s.leaseDue))

/-! ## Row refresh (R125, R126, R129) -/

/-- The row of a bank's row pointer, counted over all banks. -/
def refreshRow (k : BankIx) (r : Fin 128) : Fin 512 := Fin.ofNat 512 (k.val * 128 + r.val)

/-- The bank grants its refresh request. The last-granted port stays as it is (R125). -/
def State.refreshGranted (s : State) (k : BankIx) : State :=
  if s.bankChoice k = some .refresh then s.modArbiter k fun a => { a with current := some .refresh } else s

/-- A row's retention time begins again (R126). -/
def State.restartRow (s : State) (r : Fin 512) : State :=
  { s with rows := s.rows.set r.val { s.rows.get r with age := 0 } r.isLt }

/-- The bank's refresh has been carried out (R126, R129): the row's retention time begins again, the row pointer advances, the debt
falls by one, and the bank is free. -/
def State.refreshDone (s : State) (k : BankIx) : State :=
  if !s.resetLow && (s.arbiter k).current = some .refresh then
    ((s.restartRow (refreshRow k (s.bankRefresh k).rowPointer)).modRefresh k fun r =>
      { r with rowPointer := r.rowPointer + 1, debt := r.debt - 1 }).modArbiter k fun a => { a with current := none }
  else s

/-- ROW_REFRESH (R129). -/
def execRowRefresh (k : BankIx) (m : BankMoment) (s : State) : Host.Outcome State Fault Refusal :=
  done
    (match m with
    | .granted => s.refreshGranted k
    | .carriedOut => s.refreshDone k)

end Sys2Proof.Machine
end

