-- ==== Sys2Proof/Machine/Supervision.lean ====
section
/-! DEFINITION. SET_PARAM, SET_QUOTA and CLEAR_STATUS (Chapter 10), and the device's reset and power (R121, R158, R167). -/

namespace Sys2Proof.Machine

/-! ## SET_PARAM (R160, R161) -/

/-- The global parameters (R160). -/
inductive Param where
  | timebaseDiv | refreshInterval | urgentDebt
deriving DecidableEq, Repr

/-- The parameter codes (R169). -/
def paramOperand (w : Word) : Option Param :=
  match w.toNat with
  | 0x01 => some .timebaseDiv
  | 0x02 => some .refreshInterval
  | 0x03 => some .urgentDebt
  | _ => none

/-- The range of a parameter (R160). -/
def Param.admits (x : Param) (v : Nat) : Bool :=
  match x with
  | .timebaseDiv => 20 ≤ v && v ≤ 133
  | .refreshInterval => 4 ≤ v && v ≤ 60
  | .urgentDebt => 1 ≤ v && v ≤ 8

/-- The parameter takes a value, with what the change does at once (R127, R159, R160). -/
def State.setParameter (s : State) (x : Param) (v : Nat) : State :=
  match x with
  | .timebaseDiv => { s with timebaseDiv := v, usDivider := 0 }
  | .refreshInterval => { s with refreshInterval := v, intervalCounter := 0 }
  | .urgentDebt => { s with urgentDebt := v }

/-- PARAM_CHANGED to each attached port (R161, R162). -/
def State.placeParamChanged (s : State) (subject value : Nat) : State :=
  s.placeAll s.attachedPorts (mkRecord .paramChanged subject value)

/-- SET_PARAM (R161). -/
def Work.setParam (w : Work) (p : Port) : Work :=
  let v := (w.state.operand p 1).toNat
  if !w.state.supervises p then w.refuse p .notPermitted
  else
    match paramOperand (w.state.operand p 0) with
    | none => w.refuse p .range
    | some x =>
      if !x.admits v then w.refuse p .range
      else (w.map fun s => (s.setParameter x v).placeParamChanged (s.operand p 0).toNat v).complete p .ok res0 false

/-- SET_PARAM (R161). -/
def execSetParam (p : Port) (m : ReqMoment) (s : State) : Host.Outcome State Fault Refusal :=
  done (s.atMoment p .setParam m (s.blockRequest p .setParam fun w => w.setParam p))

/-! ## SET_QUOTA (R162) -/

/-- Why SET_QUOTA is refused, by its checks in order (R162). -/
def State.quotaRefusal (s : State) (p : Port) : Option ResultCode :=
  let v := (s.operand p 1).toNat
  if !s.supervises p then some .notPermitted
  else
    match portOperand (s.operand p 0) with
    | none => some .range
    | some q => if 256 < v || v < (s.port q).charge then some .range else none

/-- The quota code of a port in a PARAM_CHANGED record (R169). -/
def quotaCode (q : Port) : Nat := 0x10 + q.val

/-- SET_QUOTA's change of the named port's quota, with the records and the service that follow (R162 changes 1 to 3). -/
def Work.changeQuota (w : Work) (q : Port) (v : Nat) : Work :=
  let raised := (w.state.port q).quota < v
  let w' := w.map fun s => (s.modPort q fun x => { x with quota := v }).placeParamChanged (quotaCode q) v
  if raised then w'.serveWaiter q else w'

/-- The table operation of SET_QUOTA (R162). -/
def Work.setQuota (w : Work) (p : Port) : Work :=
  match w.state.quotaRefusal p, portOperand (w.state.operand p 0) with
  | some e, _ => w.refuse p e
  | none, none => w
  | none, some q => (w.changeQuota q (w.state.operand p 1).toNat).complete p .ok res0 false

/-- SET_QUOTA (R162). -/
def execSetQuota (p : Port) (m : ReqMoment) (s : State) : Host.Outcome State Fault Refusal :=
  done (s.atMoment p .setQuota m (s.tableRequest p .setQuota fun w => w.setQuota p))

/-! ## CLEAR_STATUS (R163) -/

/-- The four REFRESH_MISSED flags are cleared. -/
def State.clearMissed (s : State) : State := { s with refresh := s.refresh.map fun r => { r with missed := false } }

/-- CLEAR_STATUS (R163). -/
def Work.clearStatus (w : Work) (p : Port) : Work :=
  if !w.state.supervises p then w.refuse p .notPermitted else (w.map State.clearMissed).complete p .ok res0 false

/-- CLEAR_STATUS (R163). -/
def execClearStatus (p : Port) (m : ReqMoment) (s : State) : Host.Outcome State Fault Refusal :=
  done (s.atMoment p .clearStatus m (s.blockRequest p .clearStatus fun w => w.clearStatus p))

/-! ## Device reset and power (R121, R158, R167) -/

/-- A port at device reset: every value as device reset gives it; the level of /PRSTn and what stands on the data lines are outside
the reset, and an access in progress ends (R167). -/
def PortState.deviceReset (x : PortState) : PortState :=
  { PortState.reset with prstLow := x.prstLow, dataBus := x.endAccess.dataBus }

/-- /RESET falls (R121, R167): every block takes its reset values and the array becomes undefined afresh. -/
def State.resetFalls (s : State) : State :=
  { State.reset with
    resetLow := true
    ports := s.ports.map PortState.deviceReset
    rows := s.loseArray.rows
    freeDraws := s.freeDraws
    pending := s.pending }

/-- RESET_FALLING (R167). -/
def execResetFalling (s : State) : Host.Outcome State Fault Refusal := done s.resetFalls

/-- RESET_RISING (R158, R159): the straps are sampled, and the Time Base starts counting; when /RESET is high already nothing
rises. -/
def execResetRising (supen : Bool) (sup : Port) (s : State) : Host.Outcome State Fault Refusal :=
  done (if s.resetLow then { s with resetLow := false, supen := supen, sup := sup } else s)

/-- POWER_ON (R121): every byte and parity bit of the array becomes undefined. -/
def execPowerOn (s : State) : Host.Outcome State Fault Refusal := done s.loseArray

end Sys2Proof.Machine
end

