-- ==== Sys2Proof/Machine/Bus.lean ====
section
/-! DEFINITION. The register window (Chapter 11): NOTE0, PSTAT, PCFG and the other register writes; the words a read finds. -/

namespace Sys2Proof.Machine

/-! ## NOTE0 (R153) -/

/-- A pop of a queue (R153): the head goes into the latch with the remaining count; an empty queue is left as it is. -/
def NoteQueue.pop (q : NoteQueue) : NoteQueue :=
  match q.records with
  | [] => q
  | r :: rest => { records := rest, latch := some r, remaining := rest.length }

/-- What the read of NOTE0 returns: the kind of the head record, or EMPTY (R153, R171). -/
def NoteQueue.popWord (q : NoteQueue) : Word :=
  match q.records with
  | [] => 0
  | r :: _ => BitVec.ofNat 16 (recordKindValue r.kind)

/-- A read of NOTE0 (R153). -/
def State.popNote (s : State) (p : Port) (st : Strobe) : State :=
  (s.answerRead p st (s.port p).notes.popWord).modPort p fun x => { x with notes := x.notes.pop }

/-- NOTE0_POP (R153). -/
def execNote0Pop (p : BusRead) (s : State) : Host.Outcome State Fault Refusal :=
  done (s.busRead p.port p.strobe fun s => s.popNote p.port p.strobe)

/-! ## Register writes (R23, R147, R155, R166) -/

/-- A write to PSTAT (R147). -/
def State.pstatWrite (s : State) (p : Port) (d : Word) (l : Lanes) : State := s.modSession p fun x => x.statusWrite d l

/-- A write to PCFG (R155, R170). -/
def State.pcfgWrite (s : State) (p : Port) (d : Word) (l : Lanes) : State :=
  s.modPort p fun x => { x with config := configWrite x.config d l }

/-- A write to one of OPD0 to OPD5 (R23). -/
def State.opdWrite (s : State) (p : Port) (i : Fin 6) (d : Word) (l : Lanes) : State :=
  s.modEngine p fun e => { e with opd := e.opd.set i.val (writeLanes (e.opd.get i) d l) i.isLt }

/-- PSTAT_WRITE (R147). -/
def execPstatWrite (p : Port) (data : Word) (lanes : Lanes) (s : State) : Host.Outcome State Fault Refusal :=
  done (s.busWrite p fun s => s.pstatWrite p data lanes)

/-- PCFG_WRITE (R155). -/
def execPcfgWrite (p : Port) (data : Word) (lanes : Lanes) (s : State) : Host.Outcome State Fault Refusal :=
  done (s.busWrite p fun s => s.pcfgWrite p data lanes)

/-- What stands at a word address of the register window (R166). -/
inductive Place where
  | req
  | opd (i : Fin 6)
  | rsp
  | res (i : Fin 4)
  | note0 | note1 | note2 | note3
  | pstat | pcfg
  | windowStatus (w : WindowSel)
  | streamSettings | streamData
  | globalStatus | freeCount | ownCharge | ownQuota
  | window (w : WindowSel) (word : BitVec 8)
  | zeros
  | ones
deriving DecidableEq, Repr

/-- The address map, by word address: half the byte offset of R166's table. -/
def placeOf (addr : BitVec 10) : Place :=
  let a := addr.toNat
  if a = 0x000 then .req
  else if a ≤ 0x006 then .opd (Fin.ofNat 6 (a - 1))
  else if a = 0x008 then .rsp
  else if 0x009 ≤ a && a ≤ 0x00C then .res (Fin.ofNat 4 (a - 9))
  else if a = 0x010 then .note0
  else if a = 0x011 then .note1
  else if a = 0x012 then .note2
  else if a = 0x013 then .note3
  else if a = 0x018 then .pstat
  else if a = 0x019 then .pcfg
  else if a = 0x01A then .windowStatus .a
  else if a = 0x01B then .windowStatus .b
  else if a = 0x01C then .streamSettings
  else if a = 0x01D then .streamData
  else if a = 0x020 then .globalStatus
  else if a = 0x021 then .freeCount
  else if a = 0x022 then .ownCharge
  else if a = 0x023 then .ownQuota
  else if a < 0x040 then .zeros
  else if a < 0x200 then .ones
  else if a < 0x300 then .window .a (BitVec.ofNat 8 a)
  else .window .b (BitVec.ofNat 8 a)

/-- A write at a word address (R166): OPD0 to OPD5 are staged, the places with a write of their own take it as their rules say, and
every other write is ignored (log 24). -/
def State.writeAt (s : State) (p : Port) (addr : BitVec 10) (d : Word) (l : Lanes) : State :=
  match placeOf addr with
  | .req => s.reqWrite p d l
  | .opd i => s.opdWrite p i d l
  | .pstat => s.pstatWrite p d l
  | .pcfg => s.pcfgWrite p d l
  | .streamSettings => s.settingsWrite p d l
  | .streamData => s.streamWrite p d l
  | .window w o => s.windowWrite p w (2 * o.toNat) d l
  | .rsp | .res _ | .note0 | .note1 | .note2 | .note3 | .windowStatus _ | .globalStatus | .freeCount | .ownCharge
  | .ownQuota | .zeros | .ones => s

/-- REGISTER_WRITE (R23, R166). -/
def execRegisterWrite (p : Port) (addr : BitVec 10) (data : Word) (lanes : Lanes) (s : State) :
    Host.Outcome State Fault Refusal :=
  done (s.busWrite p fun s => s.writeAt p addr data lanes)

/-! ## What a register read returns (R164, R166 to R172; log 15) -/

/-- RSP (R169). -/
def Engine.rspWord (e : Engine) : Word := fieldAt (engineStateValue e.state) 0 ||| fieldAt (resultValue e.result) 8

/-- PSTAT (R170). -/
def Session.word (x : Session) : Word :=
  fieldAt (sessionValue x.state) 0 ||| bitAt x.sessionChange 8 ||| bitAt x.refused 9 ||| bitAt x.windowFault 10

/-- The completion-notice field (R170). -/
def noticeField : NoticeMode → Nat
  | .off => 0
  | .long => 1
  | .all => 2

/-- PCFG (R170). -/
def PortConfig.word (x : PortConfig) : Word :=
  bitAt (x.byteOrder == .big) 0 ||| bitAt x.queueEnable 1 ||| fieldAt (noticeField x.noticeMode) 2 |||
    bitAt x.sessionChangeEnable 8 ||| bitAt x.refusedEnable 9 ||| bitAt x.windowFaultEnable 10

/-- The fields of a window that views a buffer, beside its status (R172). -/
def View.word (v : View) : Word := bitAt (v.mode == .ro) 2 ||| fieldAt (handleIx v.handle).val 8

/-- A window status word (R172). -/
def Window.word : Window → Word
  | .unmapped => 0
  | .mapped v => 1 ||| v.word
  | .stale v => 2 ||| v.word

/-- The stream settings (R172). -/
def Stream.word (x : Stream) : Word :=
  bitAt (x.select == .b) 0 ||| bitAt (x.direction == .write) 1 ||| bitAt x.lengthPrefix 2 ||| bitAt x.prefixDue 3 |||
    fieldAt x.pointer 4

/-- The global status (R164, R172). -/
def State.globalWord (s : State) : Word :=
  (allBanks.foldl (fun w k => w ||| bitAt (s.bankRefresh k).missed k.val) 0) ||| bitAt s.supen 8 ||| fieldAt s.sup.val 9

/-- A field of the pop latch, 0 in its EMPTY form (R153, R171). -/
def NoteQueue.latched (q : NoteQueue) (f : Record → Word) : Word := (q.latch.map f).getD 0

/-- The word a read of a register returns; none for NOTE0, the stream data and the windows, whose reads are commands of their own. -/
def State.wordAtPlace (s : State) (p : Port) (x : Place) : Option Word :=
  let y := s.port p
  match x with
  | .req => some y.engine.reqWord
  | .opd i => some (y.engine.opd.get i)
  | .rsp => some y.engine.rspWord
  | .res i => some (y.engine.res.get i)
  | .note0 => none
  | .note1 => some (y.notes.latched Record.subject)
  | .note2 => some (y.notes.latched Record.value)
  | .note3 => some (BitVec.ofNat 16 y.notes.remaining)
  | .pstat => some y.session.word
  | .pcfg => some y.config.word
  | .windowStatus w => some (y.window w).word
  | .streamSettings => some y.stream.word
  | .streamData => none
  | .globalStatus => some s.globalWord
  | .freeCount => some (BitVec.ofNat 16 s.freeList.length)
  | .ownCharge => some (BitVec.ofNat 16 y.charge)
  | .ownQuota => some (BitVec.ofNat 16 y.quota)
  | .window _ _ => none
  | .zeros => some 0
  | .ones => some 0xFFFF#16

/-- The word a register read returns: 0xFFFF while /RESET or /PRSTn is low (R137, R167), else the register's word. -/
def State.registerRead (s : State) (p : Port) (addr : BitVec 10) : Option Word :=
  if s.resetLow || (s.port p).prstLow then some 0xFFFF#16 else s.wordAtPlace p (placeOf addr)

end Sys2Proof.Machine
end

