-- ==== Sys2Proof/Machine/Dispatch.lean ====
section
/-! DEFINITION. One arm per command. -/

namespace Sys2Proof.Machine

def exec (i : Instr) (s : State) : Host.Outcome State Fault Refusal :=
  match i with
  -- requests (Chapters 2 to 6, 8 and 10)
  | .claim p m => Sys2Proof.Machine.execClaim p m s
  | .release p m => Sys2Proof.Machine.execRelease p m s
  | .adopt p m => Sys2Proof.Machine.execAdopt p m s
  | .renew p m => Sys2Proof.Machine.execRenew p m s
  | .query p m => Sys2Proof.Machine.execQuery p m s
  | .cancel p zero head => Sys2Proof.Machine.execCancel p zero head s
  | .cancelOperation p => Sys2Proof.Machine.execCancelOperation p s
  | .badRequest p word => Sys2Proof.Machine.execBadRequest p word s
  | .refused p word lanes => Sys2Proof.Machine.execRefused p word lanes s
  | .openChannel p m => Sys2Proof.Machine.execOpenChannel p m s
  | .post p m => Sys2Proof.Machine.execPost p m s
  | .take p m => Sys2Proof.Machine.execTake p m s
  | .channelStatus p m => Sys2Proof.Machine.execChannelStatus p m s
  | .closeChannel p m => Sys2Proof.Machine.execCloseChannel p m s
  | .closeStep p => Sys2Proof.Machine.execCloseStep p s
  | .closeLastStep p => Sys2Proof.Machine.execCloseLastStep p s
  | .setLease p m => Sys2Proof.Machine.execSetLease p m s
  | .map p m => Sys2Proof.Machine.execMap p m s
  | .unmap p m => Sys2Proof.Machine.execUnmap p m s
  | .fill p m => Sys2Proof.Machine.execFill p m s
  | .copy p m => Sys2Proof.Machine.execCopy p m s
  | .zeroFillStart p => Sys2Proof.Machine.execZeroFillStart p s
  | .fillBurst p m => Sys2Proof.Machine.execFillBurst p m s
  | .copyBurstRead p m => Sys2Proof.Machine.execCopyBurstRead p m s
  | .copyBurstWrite p m => Sys2Proof.Machine.execCopyBurstWrite p m s
  | .endStep p => Sys2Proof.Machine.execEndStep p s
  | .attach p m => Sys2Proof.Machine.execAttach p m s
  | .quiesce p m => Sys2Proof.Machine.execQuiesce p m s
  | .resume p m => Sys2Proof.Machine.execResume p m s
  | .detach p m => Sys2Proof.Machine.execDetach p m s
  | .setParam p m => Sys2Proof.Machine.execSetParam p m s
  | .setQuota p m => Sys2Proof.Machine.execSetQuota p m s
  | .clearStatus p m => Sys2Proof.Machine.execClearStatus p m s
  -- waits and leases (Chapter 4)
  | .waitTimerExpiry p => Sys2Proof.Machine.execWaitTimerExpiry p s
  | .timeoutOperation p => Sys2Proof.Machine.execTimeoutOperation p s
  | .leaseRunOut b role => Sys2Proof.Machine.execLeaseRunOut b role s
  | .expiryOperation => Sys2Proof.Machine.execExpiryOperation s
  -- windows and the stream (Chapter 5); `word` is the word index, half the byte offset in the window
  | .windowRead p w word => Sys2Proof.Machine.execWindowRead p w word s
  | .windowReadGrant p m => Sys2Proof.Machine.execWindowReadGrant p m s
  | .windowWrite p w word data lanes => Sys2Proof.Machine.execWindowWrite p w word data lanes s
  | .windowWriteGrant p m => Sys2Proof.Machine.execWindowWriteGrant p m s
  | .streamSettingsWrite p data lanes => Sys2Proof.Machine.execStreamSettingsWrite p data lanes s
  | .streamDataRead p => Sys2Proof.Machine.execStreamDataRead p s
  | .streamReadGrant p m => Sys2Proof.Machine.execStreamReadGrant p m s
  | .streamDataWrite p data lanes => Sys2Proof.Machine.execStreamDataWrite p data lanes s
  | .streamWriteGrant p m => Sys2Proof.Machine.execStreamWriteGrant p m s
  -- registers (Chapters 9 and 11); `addr` is the word address on PA10 to PA1
  | .note0Pop p => Sys2Proof.Machine.execNote0Pop p s
  | .pstatWrite p data lanes => Sys2Proof.Machine.execPstatWrite p data lanes s
  | .pcfgWrite p data lanes => Sys2Proof.Machine.execPcfgWrite p data lanes s
  | .registerWrite p addr data lanes => Sys2Proof.Machine.execRegisterWrite p addr data lanes s
  -- time and refresh (Chapters 7 and 10)
  | .usTick => Sys2Proof.Machine.execUsTick s
  | .msTick => Sys2Proof.Machine.execMsTick s
  | .intervalExpiry => Sys2Proof.Machine.execIntervalExpiry s
  | .rowRefresh k m => Sys2Proof.Machine.execRowRefresh k m s
  -- pins and teardown (Chapters 8 and 11)
  | .prstFalling p => Sys2Proof.Machine.execPrstFalling p s
  | .prstRising p => Sys2Proof.Machine.execPrstRising p s
  | .fenceStep p => Sys2Proof.Machine.execFenceStep p s
  | .roleStep p => Sys2Proof.Machine.execRoleStep p s
  | .channelStep p => Sys2Proof.Machine.execChannelStep p s
  | .finalStep p => Sys2Proof.Machine.execFinalStep p s
  | .resetFalling => Sys2Proof.Machine.execResetFalling s
  | .resetRising supen sup => Sys2Proof.Machine.execResetRising supen sup s
  | .powerOn => Sys2Proof.Machine.execPowerOn s

end Sys2Proof.Machine
end

