-- ==== Sys2Proof/Machine/Step.lean ====
section
/-! DEFINITION. One step: the command at the front of the queue, or one CLK cycle when none waits. -/

namespace Sys2Proof.Machine

/-- A step takes the command at the front of the queue and runs it with the queue's rest; on an empty queue one CLK cycle passes
(log 5). -/
def step (s : State) : Host.Outcome State Fault Refusal :=
  match s.pending with
  | c :: rest => exec c { s with pending := rest }
  | [] => done s.clkCycle

/-- The command that a table word spells, put at the front of the queue; the state as it is when the word spells none. -/
def State.withFetchWord (s : State) (nbits w : Nat) : State :=
  match decodeTableWord nbits w with
  | some c => { s with pending := c :: s.pending }
  | none => s

end Sys2Proof.Machine
end

