-- ==== Sys2Proof/Safety.lean ====
section
/-! DEFINITION. The laws of the manual that every reachable state meets, as properties of one state. -/

namespace Sys2Proof.Machine

/-! ## Notification Queues (R148, R149, R151) -/

/-- Two records are not ARRIVALs of one channel (R148). -/
def Record.apart (x y : Record) : Prop := ¬(x.kind = .arrival ∧ y.kind = .arrival ∧ x.subject = y.subject)

/-- An ARRIVAL counts 1 to 255 (R149). -/
def Record.countOk (r : Record) : Prop := r.kind = .arrival → 1 ≤ r.value.toNat ∧ r.value.toNat ≤ 255

/-- What R148 says a queue holds: at most 16 records, the sixteenth being OVERFLOW alone; OVERFLOW only as the newest record; at most
one ARRIVAL for each channel; a remaining count of 0 to 15. -/
structure NoteQueue.Lawful (q : NoteQueue) : Prop where
  size : q.records.length ≤ 16
  marker : ∀ r ∈ q.records.dropLast, r.kind ≠ .overflow
  full : q.records.length = 16 → ∀ r ∈ q.records.getLast?, r.kind = .overflow
  arrivals : q.records.Pairwise Record.apart
  counts : ∀ r ∈ q.records, r.countOk
  remaining : q.remaining ≤ 15

/-- Every queue is as R148 says. -/
def State.NotesLawful (s : State) : Prop := ∀ p, (s.port p).notes.Lawful

/-- A DETACHED port's queue is empty (R146). -/
def State.DetachedQuiet (s : State) : Prop := ∀ p, s.sessionState p = .detached → (s.port p).notes.records = []

/-! ## Counters and parameters (R127, R159, R160) -/

/-- The parameters lie in their ranges and the counters below their limits; a debt is 0 to 8. -/
structure State.CountersLawful (s : State) : Prop where
  timebase : 20 ≤ s.timebaseDiv ∧ s.timebaseDiv ≤ 133
  interval : 4 ≤ s.refreshInterval ∧ s.refreshInterval ≤ 60
  urgent : 1 ≤ s.urgentDebt ∧ s.urgentDebt ≤ 8
  divider : s.usDivider < s.timebaseDiv
  ms : s.msCounter < 1000
  counter : s.intervalCounter < s.refreshInterval
  debt : ∀ k, (s.bankRefresh k).debt ≤ 8

/-! ## The expiry list (R75, R77) -/

/-- The expiry list stands in ascending position with no position twice, and an operation on offer is for the sweep position, where an
entry stands. -/
structure State.ExpiryLawful (s : State) : Prop where
  sorted : s.expiry.Pairwise fun x y => x.1.key < y.1.key
  offered : ∀ x ∈ s.lmOffer, s.sweep = x ∧ ∃ e, (x, e) ∈ s.expiry

/-! ## Access paths and banks (R122, R124) -/

/-- A bank granted to a port serves the request that the port's path presents to it. -/
def State.PathsLawful (s : State) : Prop :=
  ∀ k p, (s.arbiter k).current = some (.port p) → ∃ r, (s.port p).path = some r ∧ r.bank = k

/-! ## Engines (R21) -/

/-- What an engine holds in each engine state, and for which request (R21, R37, R38, R56). -/
structure Engine.Lawful (e : Engine) : Prop where
  idle : e.state = .idle → e.request = none ∧ e.operands = none
  waiting : e.state = .waiting → ∃ r ∈ e.request, r.code = .claim ∨ r.code = .take
  timer : e.timer.isSome = true ∨ e.cancelMarker = true → e.state = .waiting
  bulk : e.bulk.isSome = true →
    e.state = .busy ∧ ∀ r ∈ e.request, r.code = .fill ∨ r.code = .copy ∨ r.code = .claim
  claimed : e.claimed.isSome = true → e.state = .busy ∧ ∃ r ∈ e.request, r.code = .claim ∧ r.zero = true
  close : e.close.isSome = true → e.state = .busy ∧ ∃ r ∈ e.request, r.code = .closeChannel

/-- Every engine is as R21 says. -/
def State.EnginesLawful (s : State) : Prop := ∀ p, (s.port p).engine.Lawful

/-! ## Sessions and teardowns (R25, R138 to R146) -/

/-- The part of a teardown after its fence step. -/
def TeardownPhase.afterFence : TeardownPhase → Bool
  | .idle | .fence => false
  | .roles | .channels | .final => true

/-- The part of a teardown in which its port has no role left. -/
def TeardownPhase.afterRoles : TeardownPhase → Bool
  | .idle | .fence | .roles => false
  | .channels | .final => true

/-- The requests an engine runs are those its session state admits (R25); a wait, a bulk operation, a close and a claimed handle are
those of an ACTIVE port, or of one that became RESETTING; and what R146 says of a DETACHED port. -/
structure State.SessionLawful (s : State) (p : Port) : Prop where
  admitted : s.sessionState p ≠ .resetting → ∀ r ∈ (s.port p).engine.request, admits (s.sessionState p) r.code = true
  running : (s.port p).engine.state = .waiting ∨ (s.port p).engine.bulk.isSome = true →
    s.sessionState p = .active ∨ s.sessionState p = .resetting
  unmapped : s.sessionState p = .detached → (s.port p).windowA = .unmapped ∧ (s.port p).windowB = .unmapped
  noRole : s.sessionState p = .detached → ∀ b, (s.buf b).roleOf p = false
  noChannel : s.sessionState p = .detached → ∀ c, maskHas (s.chan c).destinations p = false

/-- A teardown runs exactly while its port is RESETTING (R139). After its fence step the engine is BUSY with no request, both windows are
UNMAPPED and every UNICAST channel to the port is CLOSING under it (R141); the unit owes the end step exactly while the mover holds an
operation (R143); and behind the unit's progress nothing is left to take apart (R142, R144). -/
structure State.TeardownLawful (s : State) (p : Port) : Prop where
  runs : (s.port p).teardown.phase = .idle ↔ s.sessionState p ≠ .resetting
  start : (s.port p).teardown.phase = .fence →
    (s.port p).teardown.nextBuffer = 0 ∧ (s.port p).teardown.nextChannel = 0
  fenced : (s.port p).teardown.phase.afterFence = true →
    (s.port p).engine.state = .busy ∧ (s.port p).engine.request = none
  unmapped : (s.port p).teardown.phase.afterFence = true →
    (s.port p).windowA = .unmapped ∧ (s.port p).windowB = .unmapped
  owed : (s.port p).teardown.phase.afterFence = true →
    ((s.port p).teardown.endOwed = true ↔ (s.port p).engine.bulk.isSome = true)
  unicast : (s.port p).teardown.phase.afterFence = true →
    ∀ c, (s.chan c).unicastTo p = true → (s.chan c).closer = some p
  rolesBehind : (s.port p).teardown.phase = .roles →
    ∀ b : BufIx, b.val < (s.port p).teardown.nextBuffer → (s.buf b).roleOf p = false
  noRole : (s.port p).teardown.phase.afterRoles = true → ∀ b, (s.buf b).roleOf p = false
  channelsBehind : (s.port p).teardown.phase.afterFence = true →
    ∀ c, (s.chan c).concerns p = true →
      (s.port p).teardown.nextChannel ≤ c.val ∨ (s.port p).teardown.inHand = some c
  inHand : (s.port p).teardown.phase.afterFence = true →
    ∀ c ∈ (s.port p).teardown.inHand, (s.chan c).concerns p = true → (s.chan c).closer = some p
  found : (s.port p).teardown.phase.afterFence = true → (s.port p).teardown.inHandTakenOver = false →
    ∀ c ∈ (s.port p).teardown.inHand, ∀ d : ChanIx, d.val < c.val → (s.chan d).concerns p = false
  noChannel : (s.port p).teardown.phase = .final → ∀ c, (s.chan c).concerns p = false

/-! ## Waits (R56, R68, R69) -/

/-- The port stands in the channel's take-waiter set. -/
def State.TakeWaits (s : State) (p : Port) (c : ChanIx) : Prop := maskHas (s.chan c).takeWaiters p = true

/-- A port is on the Claim Wait List or in one take-waiter set exactly while its engine is WAITING, and waits for one thing. -/
structure State.WaitsLawful (s : State) : Prop where
  nodup : s.claimWait.Nodup
  waiting : ∀ p, (s.port p).engine.state = .waiting ↔ p ∈ s.claimWait ∨ ∃ c, s.TakeWaits p c
  once : ∀ p c, s.TakeWaits p c → p ∉ s.claimWait ∧ ∀ d, s.TakeWaits p d → d = c

/-! ## Buffers, the Free List, channels and charges (R1, R2, R7, R10, R12, R13, R43, R44) -/

/-- What R1 and R2 say of one record. -/
structure BufRec.Lawful (r : BufRec) : Prop where
  held : r.holder.isSome = true → r.readers = [] ∧ r.pending = 0
  readers : (r.readers.map Role.port).Nodup
  pending : ∀ e ∈ r.readers, maskHas r.pending e.port = false
  channel : r.channel.isSome = true ↔ r.pending ≠ 0
  length : r.length ≤ 512

/-- A buffer is on the Free List exactly when it is FREE, and once (R7). -/
structure State.FreeListLawful (s : State) : Prop where
  nodup : s.freeList.Nodup
  free : ∀ b, b ∈ s.freeList ↔ (s.buf b).state = .free

/-- What R43 says of one channel. -/
structure Chan.Lawful (x : Chan) : Prop where
  closed : x.setup = none → x.queue = [] ∧ x.takeWaiters = 0
  closing : x.closer.isSome = true → x.takeWaiters = 0
  waiters : x.takeWaiters &&& ~~~x.destinations = 0
  ports : ∀ u ∈ x.setup, u.destinations ≠ 0 ∧ u.sources ≠ 0
  capacity : ∀ u ∈ x.setup, 1 ≤ u.capacity ∧ u.capacity ≤ 255 ∧ x.queue.length ≤ u.capacity
  unicast : ∀ u ∈ x.setup, u.kind = .unicast → (maskPorts u.destinations).length = 1
  nodup : x.queue.Nodup

/-- A buffer stands in the queue its channel field names and in no other, and every pending port is a destination of that channel
(R44). -/
structure State.QueuesLawful (s : State) : Prop where
  stands : ∀ b c, b ∈ (s.chan c).queue ↔ (s.buf b).channel = some c
  pending : ∀ b c, (s.buf b).channel = some c → (s.buf b).pending &&& ~~~(s.chan c).destinations = 0

/-- The roles a port has: the buffers it holds and its entries in readers lists (R10). -/
def State.roleCount (s : State) (p : Port) : Nat := (allBuffers.filter fun b => (s.buf b).roleOf p).length

/-- The law of R10 and R12: the charge is the number of the port's roles, at most its quota, and a quota is at most 256. -/
def State.ChargesLawful (s : State) : Prop :=
  ∀ p, (s.port p).charge = s.roleCount p ∧ (s.port p).charge ≤ (s.port p).quota ∧ (s.port p).quota ≤ 256

/-- The bulk operations in flight that touch a buffer (R13). -/
def State.bulkUsers (s : State) (b : BufIx) : List Port :=
  allPorts.filter fun p => (s.port p).engine.bulk.any fun m => m.touches.contains b

/-- A bulk count is the number of bulk operations in flight that read or write the buffer (R13). -/
def State.BulkLawful (s : State) : Prop := ∀ b, (s.buf b).bulkCount = (s.bulkUsers b).length

/-! ## The right to the data (R90, R93, R113) -/

/-- A MAPPED window maps a buffer in which its port has a role, a holding for mode RW (R90). -/
def State.WindowsLawful (s : State) : Prop :=
  ∀ p w v, (s.port p).window w = .mapped v →
    (s.buf (handleIx v.handle)).roleOf p = true ∧ (v.mode = .rw → (s.buf (handleIx v.handle)).heldBy p = true)

/-- A mover whose abort mark is clear and which has not stopped works for a port that holds its destination and has a role in its source
(R113). -/
def State.MoversLawful (s : State) : Prop :=
  ∀ p, ∀ m ∈ (s.port p).engine.bulk, m.phase = .moving → m.abort = false →
    (s.buf m.destination.buffer).heldBy p = true ∧
      ∀ r ∈ m.source, (s.buf r.buffer).roleOf p = true

/-! ## All of the pool's laws together -/

/-- The laws of the pool state, its engines, teardowns and rights, which lean on one another. -/
structure State.PoolLawful (s : State) : Prop where
  engines : s.EnginesLawful
  sessions : ∀ p, s.SessionLawful p
  teardowns : ∀ p, s.TeardownLawful p
  waits : s.WaitsLawful
  buffers : ∀ b, (s.buf b).Lawful
  freeList : s.FreeListLawful
  channels : ∀ c, (s.chan c).Lawful
  queues : s.QueuesLawful
  charges : s.ChargesLawful
  bulk : s.BulkLawful
  windows : s.WindowsLawful
  movers : s.MoversLawful

/-- Every law together. -/
structure State.Lawful (s : State) : Prop where
  notes : s.NotesLawful
  quiet : s.DetachedQuiet
  counters : s.CountersLawful
  array : arrayWf s.array = true
  expiry : s.ExpiryLawful
  paths : s.PathsLawful
  pool : s.PoolLawful

/-! ## Terms that the statements use -/

/-- The row, counted over all banks, that holds an offset of a buffer (R118); an offset is taken modulo 512 (log 19). -/
def arrayRow (b : BufIx) (o : Nat) : Fin 512 := Fin.ofNat 512 (128 * (b.val % 4) + 2 * (b.val / 4) + o % 512 / 256)

/-- A µs tick at the rows (R130, 11.6; log 8): every row is one tick older, and a row that was at its retention time already is now beyond
it: its cells are dropped and its contents are those of the next epoch. -/
def State.rowsTick (s : State) : State :=
  { s with
    rows := s.rows.map fun r =>
      { age := r.age + 1, epoch := if r.age < Config.retentionTicks then r.epoch else r.epoch + 1 }
    array := s.array.filter fun e => (s.rows.get (Fin.ofNat 512 (e.1 / 256))).age < Config.retentionTicks }

/-- The banks that the next µs tick makes miss a refresh, in ascending number: those at debt 8 when it is an interval expiry (R128, R130). -/
def State.missesAtTick (s : State) : List BankIx :=
  if s.refreshInterval ≤ s.intervalCounter + 1 then ([0, 1, 2, 3] : List BankIx).filter fun k => 8 ≤ (s.bankRefresh k).debt else []

/-- A port's queue after the next µs tick: an attached port is handed one REFRESH_MISSED for each bank that misses, in that order (R130). -/
def State.notesTick (s : State) (p : Port) : NoteQueue :=
  if s.attached p then
    s.missesAtTick.foldl (fun q k => q.hand { kind := .refreshMissed, subject := BitVec.ofNat 16 k.val, value := 0 }) (s.port p).notes
  else (s.port p).notes

/-- A port whose request completes (R30 to R32): its engine is IDLE with the result latched, and its queue is handed the COMPLETE record
that the completion-notice mode selects. -/
def PortState.completes (x : PortState) (c : ResultCode) (r : Vector Word 4) (long : Bool) : PortState :=
  { x with
    engine := x.engine.completed c r
    notes :=
      if x.session.state != .detached && noticeDue x.config.noticeMode long then x.notes.hand (completeRecord x.engine c)
      else x.notes }

/-- A granted request that completes with a code and changes nothing else (R29, R31). -/
def State.answered (s : State) (p : Port) (c : ResultCode) : State :=
  (s.served (.re p)).modPort p fun x => x.completes c res0 false

/-- A port whose CLAIM gets the buffer of a handle (R8 step 3, R37): its charge rises by one, and the CLAIM completes OK with the handle, or
with ZERO goes on to its fill. -/
def PortState.givenBuffer (x : PortState) (h : Word) (long : Bool) : PortState :=
  if x.engine.claimsZero then
    { x with
      charge := x.charge + 1
      engine := { x.engine with state := .busy, claimed := some h, timer := none, cancelMarker := false } }
  else ({ x with charge := x.charge + 1 } : PortState).completes .ok (res4 h 0 0 0) long

/-- A port that gives up a role in a buffer (R39, R40, R49): its windows of the buffer become UNMAPPED and its charge falls by one. -/
def PortState.givesUp (x : PortState) (b : BufIx) : PortState :=
  { x with windowA := x.windowA.unmapOf b, windowB := x.windowB.unmapOf b, charge := x.charge - 1 }

/-- A port that loses a role in a buffer by a reclaim (R80, R81): its windows of the buffer become STALE, its charge falls by one, and the
abort mark of its bulk operation is set when the operation uses the role. -/
def PortState.loses (x : PortState) (b : BufIx) (uses : Bool) : PortState :=
  { x with
    windowA := x.windowA.staleOf b, windowB := x.windowB.staleOf b, charge := x.charge - 1
    engine :=
      if uses then { x.engine with bulk := x.engine.bulk.map fun m => { m with abort := true } } else x.engine }

/-- The record of a buffer handed out from FREE to a port (R4, R8 step 3, R37). -/
def BufRec.handedTo (r : BufRec) (p : Port) (holdLease : Word) : BufRec :=
  { r with holder := some { port := p, lease := leaseOf holdLease }, length := 0, tag := 0, origin := none }

/-- The record of a buffer whose port gets a reader role (R50, R57). -/
def BufRec.readBegun (r : BufRec) (p : Port) (readLease : Word) : BufRec :=
  { r with readers := r.readers ++ [{ port := p, lease := leaseOf readLease }], pending := maskErase r.pending p }

/-- The result words of a TAKE of a buffer (R57, R173). -/
def BufRec.takeWords (r : BufRec) (b : BufIx) : Vector Word 4 :=
  res4 (handleOf r.generation b) (BitVec.ofNat 16 r.length) r.tag (BitVec.ofNat 16 ((r.origin.map Fin.val).getD 0))

/-- No claim waiter is below its quota, so a buffer that enters FREE joins the Free List (R8 step 4). -/
def State.nobodyToServe (s : State) : Prop := ∀ q ∈ s.claimWait, s.belowQuota q = false

/-- A claim waiter gets a buffer (R8 step 3, R9): it leaves the Claim Wait List and holds the buffer, and its CLAIM has the handle with the
generation that the record then has. -/
def State.handsTo (s : State) (q : Port) (b : BufIx) : State :=
  ((s.setClaimWait (s.claimWait.erase q)).modBuf b fun r => r.handedTo q (s.port q).session.holdLease).modPort q fun x =>
    x.givenBuffer (handleOf (s.buf b).generation b) true

/-- A buffer enters FREE (R8): its record is cleared with the next generation, and it goes to the oldest claim waiter below its quota, or to
the tail of the Free List. -/
def State.entersFree (s : State) (b : BufIx) : State :=
  let t := s.modBuf b fun r =>
    { r with
      generation := r.generation + 1, holder := none, readers := [], pending := 0, channel := none, origin := none }
  match s.claimWait.find? s.belowQuota with
  | some q => t.handsTo q b
  | none => t.setFreeList (s.freeList ++ [b])

/-- The last-use rule (R3): a buffer with no role, nothing pending and bulk count 0 enters FREE; any other stays as its record is. -/
def State.lastUsed (s : State) (b : BufIx) : State :=
  if (s.buf b).holder = none ∧ (s.buf b).readers = [] ∧ (s.buf b).pending = 0 ∧ (s.buf b).bulkCount = 0 then s.entersFree b else s

/-- Claim service (R9): the claim waiters below their quotas, oldest first, get the buffers at the head of the Free List, one each, as far
as the list goes. -/
def State.claimServed (s : State) : State :=
  let served := (s.claimWait.filter s.belowQuota).zip s.freeList
  served.foldl (fun t x => t.handsTo x.1 x.2) (s.setFreeList (s.freeList.drop served.length))

/-- A waiting TAKE gets an entry of the channel (R57, R59): the port becomes a reader and leaves the take-waiter set, the entry leaves the
queue when nothing is pending any more, and the TAKE completes OK. -/
def State.takesEntry (s : State) (p : Port) (c : ChanIx) (b : BufIx) : State :=
  let left := maskErase (s.buf b).pending p
  ((s.modBuf b fun r =>
    { r.readBegun p (s.port p).session.readLease with channel := if left = 0 then none else r.channel }).modChan c fun x =>
      { x with
        queue := if left = 0 then x.queue.erase b else x.queue
        takeWaiters := maskErase x.takeWaiters p }).modPort p fun x =>
          ({ x with charge := x.charge + 1 } : PortState).completes .ok ((s.buf b).takeWords b) true

/-- The service of a port whose charge was lowered or whose quota was raised (R9, R59, R79, R162): claim service when it stands on the Claim
Wait List; when it waits on a channel, stands below its quota and an entry is eligible for it, that entry. -/
def State.waitServed (s : State) (p : Port) : State :=
  if p ∈ s.claimWait then s.claimServed
  else
    match allChannels.find? fun c => maskHas (s.chan c).takeWaiters p with
    | none => s
    | some c =>
      match s.eligible c p with
      | none => s
      | some b => if (s.port p).charge < (s.port p).quota then s.takesEntry p c b else s

/-- The take waiters that a POST to the channel delivers to at once (R50): those below their quotas, in port order. -/
def State.takersAt (s : State) (c : ChanIx) : List Port :=
  (maskPorts ((s.chan c).takeWaiters &&& (s.chan c).destinations)).filter s.belowQuota

/-- The destinations that a POST to the channel leaves pending (R50, R51). -/
def State.leftPending (s : State) (c : ChanIx) : PortMask := (s.chan c).destinations &&& ~~~maskOf (s.takersAt c)

/-- A POST of a port to a channel with settings `u` (R49 to R51, R54), all but the poster's own completion: the holding ends, the record is
prepared, each taker gets the buffer and completes its TAKE, and with destinations left pending the buffer joins the queue, which stands
as `queue` before it, those attached being told by the notice mode. -/
def State.posts (s : State) (p : Port) (c : ChanIx) (u : ChanSetup) (queue : List BufIx) : State :=
  let b := handleIx (s.operand p 0)
  let takers := s.takersAt c
  let left := s.leftPending c
  let told := (maskPorts left).filter fun d =>
    s.attached d && (u.notice == .every || !queue.any fun e => maskHas (s.buf e).pending d)
  takers.foldl
    (fun t q => t.modPort q fun x =>
      ({ x with charge := x.charge + 1 } : PortState).completes .ok
        (res4 (s.operand p 0) (s.operand p 2) (s.operand p 3) (BitVec.ofNat 16 p.val)) true)
    ((((s.modBuf b fun r =>
      { r with
        length := (s.operand p 2).toNat, tag := s.operand p 3, origin := some p, holder := none, pending := left
        channel := if left = 0 then none else some c
        readers := r.readers ++ takers.map fun q => { port := q, lease := leaseOf (s.port q).session.readLease } }).modChan c
          fun x =>
            { x with
              takeWaiters := x.takeWaiters &&& ~~~maskOf takers
              queue := if left = 0 then queue else if s.headFlag p then b :: queue else queue ++ [b] }).modPort p fun x =>
                x.givesUp b).placeAll told (mkRecord .arrival c.val 1))

/-- The entry at the head of a queue leaves it, with its pending set emptied (R53, R61). -/
def State.entryLeaves (s : State) (c : ChanIx) (b : BufIx) : State :=
  (s.modChan c fun x => { x with queue := x.queue.tail }).modBuf b fun r => { r with pending := 0, channel := none }

/-- The buffer's origin, when it is attached, is handed a record: the handle as it stands, and the channel (R53, R61). -/
def State.originTold (s : State) (k : RecordKind) (c : ChanIx) (b : BufIx) : State :=
  match (s.buf b).origin with
  | some o =>
    if s.attached o then
      s.modPort o fun x =>
        { x with
          notes := x.notes.hand
            { kind := k, subject := handleOf (s.buf b).generation b, value := BitVec.ofNat 16 c.val } }
    else s
  | none => s

/-- A close step returns the head entry's buffer to its origin, with RETURNED (R61 step 3). -/
def State.entryReturned (s : State) (c : ChanIx) (b : BufIx) (o : Port) : State :=
  (((s.originTold .returned c b).entryLeaves c b).modBuf b fun r =>
    { r with origin := none, holder := some { port := o, lease := leaseOf (s.port o).session.holdLease } }).modPort o fun x =>
      { x with charge := x.charge + 1 }

/-- A close step discards the head entry, with DISCARDED (R61 step 4). -/
def State.entryDiscarded (s : State) (c : ChanIx) (b : BufIx) : State :=
  ((s.originTold .discarded c b).entryLeaves c b).lastUsed b

/-- The port's bank request of a kind is the one its bank grants next (R125). -/
def State.bankGrants (s : State) (p : Port) (r : BankRequest) : Prop :=
  (s.port p).path = some r ∧ s.bankChoice r.bank = some (.port p)

/-- The bank occupied by a grant to the port (R124). -/
def State.occupied (s : State) (k : BankIx) (p : Port) : State :=
  s.modArbiter k fun _ => { lastPort := p, current := some (.port p) }

end Sys2Proof.Machine

namespace Sys2Proof

/-- The command of a request at one of its moments. CANCEL is a command of another shape. -/
def requestCommand (p : Port) (m : ReqMoment) : Machine.ReqCode → Option Instr
  | .claim => some (.claim p m)
  | .release => some (.release p m)
  | .adopt => some (.adopt p m)
  | .renew => some (.renew p m)
  | .query => some (.query p m)
  | .cancel => none
  | .openChannel => some (.openChannel p m)
  | .closeChannel => some (.closeChannel p m)
  | .post => some (.post p m)
  | .take => some (.take p m)
  | .channelStatus => some (.channelStatus p m)
  | .setLease => some (.setLease p m)
  | .map => some (.map p m)
  | .unmap => some (.unmap p m)
  | .fill => some (.fill p m)
  | .copy => some (.copy p m)
  | .attach => some (.attach p m)
  | .detach => some (.detach p m)
  | .quiesce => some (.quiesce p m)
  | .resume => some (.resume p m)
  | .setParam => some (.setParam p m)
  | .setQuota => some (.setQuota p m)
  | .clearStatus => some (.clearStatus p m)

/-- The port of a request at its REQ write; none when it is carried out. -/
def ReqMoment.onBus (m : ReqMoment) (p : Port) : Option Port :=
  match m with
  | .written _ _ => some p
  | .carriedOut => none

/-- The port whose master makes the bus access that a command is; none for the commands that are no bus access. -/
def Instr.busPort : Instr → Option Port
  | .claim p m | .release p m | .adopt p m | .renew p m | .query p m | .openChannel p m | .post p m | .take p m
  | .channelStatus p m | .closeChannel p m | .setLease p m | .map p m | .unmap p m | .fill p m | .copy p m | .attach p m
  | .quiesce p m | .resume p m | .detach p m | .setParam p m | .setQuota p m | .clearStatus p m => m.onBus p
  | .cancel p _ _ | .badRequest p _ | .refused p _ _ | .windowWrite p _ _ _ _ | .streamSettingsWrite p _ _
  | .streamDataWrite p _ _ | .pstatWrite p _ _ | .pcfgWrite p _ _ | .registerWrite p _ _ _ => some p
  | .windowRead p _ _ | .streamDataRead p | .note0Pop p => some p.port
  | .cancelOperation _ | .closeStep _ | .closeLastStep _ | .zeroFillStart _ | .fillBurst _ _ | .copyBurstRead _ _
  | .copyBurstWrite _ _ | .endStep _ | .waitTimerExpiry _ | .timeoutOperation _ | .leaseRunOut _ _ | .expiryOperation
  | .windowReadGrant _ _ | .windowWriteGrant _ _ | .streamReadGrant _ _ | .streamWriteGrant _ _ | .usTick | .msTick
  | .intervalExpiry | .rowRefresh _ _ | .prstFalling _ | .prstRising _ | .fenceStep _ | .roleStep _ | .channelStep _
  | .finalStep _ | .resetFalling | .resetRising _ _ | .powerOn => none

/-- The strobe of a bus access that reads (R165); none for every other command. -/
def Instr.busReads : Instr → Option Strobe
  | .windowRead p _ _ | .streamDataRead p | .note0Pop p => some p.strobe
  | _ => none

/-- The commands that are a µs tick, or name the µs tick which brings their event about (R159; log 6). -/
def Instr.ticks : Instr → Bool
  | .usTick | .msTick | .intervalExpiry | .waitTimerExpiry _ | .leaseRunOut _ _ => true
  | _ => false

/-- The commands that can change a stored byte: the grants of writes, the ticks of the retention time, and the device's reset and power. -/
def Instr.mayChangeBytes : Instr → Bool
  | .windowWriteGrant _ .granted | .streamWriteGrant _ .granted | .fillBurst _ .granted | .copyBurstWrite _ .granted
  | .usTick | .msTick | .intervalExpiry | .waitTimerExpiry _ | .leaseRunOut _ _ | .resetFalling | .powerOn => true
  | _ => false

end Sys2Proof
end

