-- ==== Sys2Proof/Certificates/Slice0/Obligations.lean ====
section
/-! DEFINITION. The statements for the provers. -/

open Sys2Proof Sys2Proof.Machine

/-! ## The step and the device's own activity -/

/-- A step takes the command at the front of the queue and runs it on the state with the queue's rest. -/
def Obligations.StepRunsFrontCommand : Prop :=
  ∀ (c : Instr) (rest : List Instr) (s : State),
    step { s with pending := c :: rest } = exec c { s with pending := rest }

/-- On an empty queue one CLK cycle passes, which is the model's choice (log 5): the µs divider rises by one (R159), the cycle that
brings it to TIMEBASE_DIV gives a µs tick, and nothing happens while /RESET is low. -/
def Obligations.EmptyQueueIsOneClkCycle : Prop :=
  ∀ s : State, s.pending = [] →
    (s.resetLow = true → step s = .next s) ∧
    (s.resetLow = false → s.usDivider + 1 < s.timebaseDiv →
      step s = .next (State.settle { s with usDivider := s.usDivider + 1 })) ∧
    (s.resetLow = false → s.timebaseDiv ≤ s.usDivider + 1 → step s = exec .usTick s)

/-- Every command answers a next state in every state, and leaves the queue of waiting commands as it is. That a command whose event cannot
occur in the state answers a next state, without effect, is the model's choice (log 3); so is the queue of waiting commands (logs 21 and
22). -/
def Obligations.EveryCommandAnswersNext : Prop :=
  ∀ (c : Instr) (s : State), ∃ t, exec c s = .next t ∧ t.pending = s.pending

/-- What follows each command by itself (R77, R113, R122); that it follows each command, and at once, is the model's choice (log 13).
Nothing while /RESET is low. It changes only what the access paths present, the phase of a mover that finds its abort mark set, and the
Lease Monitor's offer with its sweep position. A Lease Monitor with nothing on offer offers the first position after the sweep position
that holds an entry, and from the list's end goes on at its start. A FREE path presents the write of a COPY burst whose read has been
carried out, ahead of an access that has arrived since (R112, R122 case 1, R116; that R122's last sentence yields to them is the model's
choice, log 27); else a waiting access; else the next burst of a MOVING mover, which stops ABORTED instead when its mark is set. A request
names the bank and the row of its offset, which is taken modulo 512 (log 19). -/
def Obligations.SettlingFrame : Prop :=
  ∀ s : State,
    (s.resetLow = true → s.settle = s) ∧
    s.settle =
      { s with ports := s.settle.ports, sweep := s.settle.sweep, lmOffer := s.settle.lmOffer } ∧
    (∀ x, s.lmOffer = some x → s.settle.lmOffer = some x ∧ s.settle.sweep = s.sweep) ∧
    (s.expiry = [] → s.settle.lmOffer = s.lmOffer ∧ s.settle.sweep = s.sweep) ∧
    (let place (x : Position) : Nat := 5 * x.buffer.val + (match x.role with
      | .holder => 0
      | .reader p => p.val + 1)
    s.resetLow = false → s.lmOffer = none → s.expiry.Pairwise (fun x y => place x.1 < place y.1) →
    ∀ x e, (x, e) ∈ s.expiry →
      (place s.sweep < place x ∧ ∀ y ∈ s.expiry, place s.sweep < place y.1 → place x ≤ place y.1) ∨
        ((∀ y ∈ s.expiry, place y.1 ≤ place s.sweep) ∧ ∀ y ∈ s.expiry, place x ≤ place y.1) →
      s.settle.lmOffer = some x ∧ s.settle.sweep = x) ∧
    ∀ p,
      let x := s.port p
      let e := x.engine
      let request (b : BufIx) (o : Nat) (what : PathRequest) : Option BankRequest :=
        some { bank := Fin.ofNat 4 b.val, row := 2 * (b.val / 4) + o % 512 / 256, what := what }
      (∀ r, x.path = some r → s.settle.port p = x) ∧
      (s.resetLow = false → x.path = none →
        (∀ m run, e.bulk = some m → m.readRun = some run →
          s.settle.port p =
            { x with path := request m.destination.buffer (m.burstStart m.destination) .copyWrite }) ∧
        ((∀ m, e.bulk = some m → m.readRun = none) →
          (∀ a, x.access = some a → a.phase = .waiting →
            s.settle.port p = { x with path := request a.buffer a.offset (match a.kind with
              | .windowRead _ => .windowRead
              | .windowWrite _ _ => .windowWrite
              | .streamRead _ => .streamRead
              | .streamWrite _ _ => .streamWrite) }) ∧
          ((∀ a, x.access = some a → a.phase ≠ .waiting) →
            (∀ m, e.bulk = some m → m.phase = .moving → m.abort = true →
              s.settle.port p =
                { x with engine := { e with bulk := some { m with phase := .stopped .aborted, readRun := none } } }) ∧
            (∀ m, e.bulk = some m → m.phase = .moving → m.abort = false →
              (∀ r, m.source = some r →
                s.settle.port p = { x with path := request r.buffer (m.burstStart r) .copyRead }) ∧
              (m.source = none →
                s.settle.port p =
                  { x with path := request m.destination.buffer (m.burstStart m.destination) .fillBurst })) ∧
            ((∀ m, e.bulk = some m → m.phase ≠ .moving) → s.settle.port p = x))))

/-! ## Device reset, power and the straps -/

/-- What device reset leaves (R1, R7, R16, R22, R43, R75, R86, R98, R124, R127, R131, R139, R148, R159, R160). -/
def Obligations.ResetValues : Prop :=
  (∀ p,
    State.reset.sessionState p = .detached ∧
    (State.reset.port p).engine.state = .idle ∧ (State.reset.port p).engine.request = none ∧
    (State.reset.port p).engine.result = .none ∧ (State.reset.port p).engine.res = #v[0, 0, 0, 0] ∧
    (State.reset.port p).engine.opd = #v[0, 0, 0, 0, 0, 0] ∧ (State.reset.port p).engine.reqWord = 0 ∧
    (State.reset.port p).engine.bulk = none ∧
    (State.reset.port p).windowA = .unmapped ∧ (State.reset.port p).windowB = .unmapped ∧
    (State.reset.port p).stream =
      { select := .a, direction := .read, lengthPrefix := false, pointer := 0, prefixDue := false } ∧
    (State.reset.port p).config.word = 0 ∧ (State.reset.port p).session.word = 0 ∧
    (State.reset.port p).session.holdLease = 0 ∧ (State.reset.port p).session.readLease = 0 ∧
    (State.reset.port p).session.grace = 0 ∧
    (State.reset.port p).notes = { records := [], latch := none, remaining := 0 } ∧
    (State.reset.port p).teardown.phase = .idle ∧ (State.reset.port p).path = none ∧
    (State.reset.port p).charge = 0 ∧ (State.reset.port p).quota = 64) ∧
  (∀ b, (State.reset.buf b).state = .free ∧ (State.reset.buf b).generation = 0 ∧ (State.reset.buf b).length = 0 ∧
    (State.reset.buf b).tag = 0 ∧ (State.reset.buf b).bulkCount = 0) ∧
  State.reset.freeList = List.finRange 256 ∧ State.reset.claimWait = [] ∧
  (∀ c, (State.reset.chan c).status = .closed ∧ (State.reset.chan c).queue = [] ∧
    (State.reset.chan c).takeWaiters = 0) ∧
  State.reset.lastServed = .lm ∧
  State.reset.expiry = [] ∧ State.reset.lmOffer = none ∧ State.reset.sweep = { buffer := 255, role := .reader 3 } ∧
  (∀ k, State.reset.arbiter k = { lastPort := 3, current := none } ∧
    State.reset.bankRefresh k = { rowPointer := 0, debt := 0, missed := false }) ∧
  State.reset.intervalCounter = 0 ∧ State.reset.usDivider = 0 ∧ State.reset.msCounter = 0 ∧
  State.reset.timebaseDiv = 100 ∧ State.reset.refreshInterval = 15 ∧ State.reset.urgentDebt = 6

/-- The state after reset meets every law. -/
def Obligations.ResetLawful : Prop := State.reset.Lawful

/-- RESET_FALLING (R121, R167): every block takes its values of device reset, whatever it was doing; /RESET is then low, and the array
is undefined afresh (log 7): no cell is listed and every row's epoch has advanced. RESET_RISING (R158) samples the straps and changes
nothing else. What the /PRSTn inputs and the data lines carry is not part of the reset. POWER_ON (R121): every byte and parity bit of
the array becomes undefined: no cell is listed, every row's epoch advances (log 7) and its retention time begins. Nothing else changes
(log 10). The model's choices beside these: the straps read low and 0 while /RESET is low (logs 9 and 16), RESET_FALLING applies the
reset again when /RESET is low already, and RESET_RISING changes nothing when it is high already (log 26). -/
def Obligations.DeviceReset : Prop :=
  ((∀ s : State, ∃ t, exec .resetFalling s = .next t ∧
    t.resetLow = true ∧ t.array = [] ∧ (∀ r, (t.rows.get r).epoch = (s.rows.get r).epoch + 1) ∧
    (∀ p, t.port p =
      { PortState.reset with
        prstLow := (s.port p).prstLow
        dataBus := if (s.port p).access.any fun a => a.kind.answers then 0xFFFF#16 else (s.port p).dataBus }) ∧
    { t with resetLow := false, ports := State.reset.ports, rows := State.reset.rows, freeDraws := 0, pending := [] } =
      State.reset) ∧
  (∀ (s : State) (supen : Bool) (sup : Port), s.resetLow = true →
    exec (.resetRising supen sup) s = .next (State.settle { s with resetLow := false, supen := supen, sup := sup })) ∧
  (∀ (s : State) (supen : Bool) (sup : Port), s.resetLow = false → exec (.resetRising supen sup) s = .next s.settle)) ∧
  (∀ s : State, exec .powerOn s =
    .next (State.settle { s with array := [], rows := s.rows.map fun r => { age := 0, epoch := r.epoch + 1 } }))

/-! ## Bus accesses while an input is low -/

/-- While the port's /PRSTn or /RESET is low every bus write of the port is dropped and sets no flag, and every bus read changes nothing and
answers 0xFFFF, which a strobe that has risen early discards (R137, R165, R167; log 14). /PIRQ is asserted exactly while both inputs are
high and the queue holds a record under its enable, or a change flag is set under its enable (R156). PDREQ is asserted exactly while both
inputs are high, the stream's window is MAPPED, in mode RW for WRITE, and there is a word to move: for READ the prefix or a pointer below
the latched length rounded up to even, for WRITE a pointer below 512 (R103). -/
def Obligations.LowInputsDropAccesses : Prop :=
  (∀ (c : Instr) (p : Port) (s : State), c.busPort = some p → s.resetLow = true ∨ (s.port p).prstLow = true →
    (c.busReads = none → exec c s = .next s.settle) ∧
    (c.busReads = some .held →
      exec c s = .next (State.settle (s.modPort p fun x => { x with dataBus := 0xFFFF#16 }))) ∧
    (c.busReads = some .early → exec c s = .next s.settle) ∧
    (∀ addr, s.registerRead p addr = some 0xFFFF#16)) ∧
  ∀ (p : Port) (s : State),
    let x := s.port p
    (s.pirq p = true ↔ s.resetLow = false ∧ x.prstLow = false ∧
      ((x.notes.records ≠ [] ∧ x.config.queueEnable = true) ∨
        (x.session.sessionChange = true ∧ x.config.sessionChangeEnable = true) ∨
        (x.session.refused = true ∧ x.config.refusedEnable = true) ∨
        (x.session.windowFault = true ∧ x.config.windowFaultEnable = true))) ∧
    (s.pdreq p = true ↔ s.resetLow = false ∧ x.prstLow = false ∧
      ∃ v, x.window x.stream.select = .mapped v ∧
        ((x.stream.direction = .read ∧ (x.stream.prefixDue = true ∨ x.stream.pointer < 2 * ((v.length + 1) / 2))) ∨
          (x.stream.direction = .write ∧ v.mode = .rw ∧ x.stream.pointer < 512)))

/-! ## Taking and refusing requests (Chapter 2) -/

/-- The REQ write of an admitted request in IDLE (R24): the code, the flags and the staged operands are latched, RSP and the result
words are cleared, and the engine becomes BUSY. Nothing else changes. -/
def Obligations.RequestTaken : Prop :=
  ∀ (p : Port) (c : ReqCode) (zero head : Bool) (i : Instr) (s : State),
    requestCommand p (.written zero head) c = some i → s.busReady p = true → (s.port p).engine.state = .idle →
    admits (s.sessionState p) c = true →
    exec i s = .next (State.settle (s.modEngine p fun e =>
      { e with
        state := .busy, request := some { code := c, zero := zero, head := head }, operands := some e.opd,
        result := .none, res := #v[0, 0, 0, 0], reqWord := reqWordOf c zero head }))

/-- What completes with the REQ write in IDLE (R24, R25, R33): a request the session state does not admit, SESSION; an unknown code,
BAD_REQUEST; CANCEL, OK, or SESSION where it is not admitted. Only RSP, the result words, the REQ read-back and the COMPLETE record
change. -/
def Obligations.CompletedAtTheWrite : Prop :=
  ∀ (p : Port) (s : State), s.busReady p = true → (s.port p).engine.state = .idle → s.sessionState p ≠ .resetting →
    (∀ (c : ReqCode) (zero head : Bool) (i : Instr), requestCommand p (.written zero head) c = some i →
      admits (s.sessionState p) c = false →
      exec i s = .next (State.settle (s.modPort p fun x =>
        ({ x with engine := { x.engine with reqWord := reqWordOf c zero head } } : PortState).completes .session res0 false))) ∧
    (∀ word : Word, reqCodeOf (lowByte word) = none →
      exec (.badRequest p word) s = .next (State.settle (s.modPort p fun x =>
        ({ x with engine := { x.engine with reqWord := word &&& 0x03FF#16 } } : PortState).completes .badRequest res0 false))) ∧
    (∀ zero head : Bool,
      exec (.cancel p zero head) s = .next (State.settle (s.modPort p fun x =>
        ({ x with engine := { x.engine with reqWord := reqWordOf .cancel zero head } } : PortState).completes
          (if s.sessionState p = .active then .ok else .session) res0 false)))

/-- R27: a REQ write is dropped while /PRSTn is low; in a RESETTING port, and with one byte enable asserted alone, it sets REFUSED and
changes nothing else, CANCEL included; with neither enable it changes nothing. -/
def Obligations.RefusedReqWrites : Prop :=
  ∀ (p : Port) (s : State), s.resetLow = false →
    (∀ c : Instr, c.busPort = some p → c.busReads = none → (s.port p).prstLow = true → exec c s = .next s.settle) ∧
    ((s.port p).prstLow = false → (s.port p).access = none →
      (s.sessionState p = .resetting →
        (∀ (word : Word) (lanes : Lanes), lanes.lo = true ∨ lanes.hi = true →
          exec (.refused p word lanes) s =
            .next (State.settle (s.modSession p fun x => { x with refused := true }))) ∧
        (∀ zero head, exec (.cancel p zero head) s =
            .next (State.settle (s.modSession p fun x => { x with refused := true })))) ∧
      (∀ (word : Word) (lanes : Lanes), lanes.lo ≠ lanes.hi →
        exec (.refused p word lanes) s =
          .next (State.settle (s.modSession p fun x => { x with refused := true }))) ∧
      ∀ word : Word, exec (.refused p word { lo := false, hi := false }) s = .next s.settle)

/-- R26: in BUSY and WAITING a REQ write of any code but CANCEL sets REFUSED and changes nothing else. CANCEL in WAITING and BUSY (R34
to R36): it sets the cancel marker of a wait whose timer has not expired, or the abort mark of a bulk operation in flight; otherwise it
has no effect. -/
def Obligations.ReqWritesInProgress : Prop :=
  (∀ (p : Port) (s : State), s.busReady p = true → (s.port p).engine.state ≠ .idle →
    (∀ word : Word, reqCodeOf (lowByte word) ≠ some .cancel →
      exec (.refused p word { lo := true, hi := true }) s =
        .next (State.settle (s.modSession p fun x => { x with refused := true }))) ∧
    ∀ (c : ReqCode) (zero head : Bool) (i : Instr), requestCommand p (.written zero head) c = some i →
      exec i s = .next (State.settle (s.modSession p fun x => { x with refused := true }))) ∧
  (∀ (p : Port) (zero head : Bool) (s : State), s.busReady p = true → s.sessionState p ≠ .resetting →
    ((s.port p).engine.state = .waiting → (s.port p).engine.timer ≠ none →
      exec (.cancel p zero head) s = .next (State.settle (s.modEngine p fun e => { e with cancelMarker := true }))) ∧
    ((s.port p).engine.state = .waiting → (s.port p).engine.timer = none →
      exec (.cancel p zero head) s = .next s.settle) ∧
    (∀ m, (s.port p).engine.state = .busy → (s.port p).engine.bulk = some m →
      exec (.cancel p zero head) s =
        .next (State.settle (s.modEngine p fun e => { e with bulk := some { m with abort := true } }))) ∧
    ((s.port p).engine.state = .busy → (s.port p).engine.bulk = none →
      exec (.cancel p zero head) s = .next s.settle))

/-! ## The Table Arbiter (R16, R20) -/

/-- The ring of R16: the requester granted is one with an operation waiting, and no requester that stands before it, counting from the
one after the requester served last, has an operation waiting; one is granted whenever any waits; none while /RESET is low. What waits:
the engine of a RESETTING port offers nothing (R138); of another, in WAITING its cancel operation, or its timeout operation once the
timer has expired; in BUSY the end step of a stopped mover, a zero fill's start step, the next close step, or the table operation of its
request (R20, R21, R29; log 4). A Teardown Unit offers the step of its phase; with an end step owed, that one first once the mover has
stopped (log 12), and never the final step (R143). The Lease Monitor offers what it has on offer (R77). The grant order of a free bank
(R125): an urgent refresh; else a waiting port, none of those before it in the ring from the port after the last-granted one waiting;
else an ordinary refresh. -/
def Obligations.GrantOrders : Prop :=
  (let ring : List Requester := [.re 0, .tu 0, .re 1, .tu 1, .re 2, .tu 2, .re 3, .tu 3, .lm]
  let distance (from_ to_ : Requester) : Nat := (ring.idxOf to_ + 8 - ring.idxOf from_) % 9
  ∀ s : State,
    (s.resetLow = true → s.tableChoice = none) ∧
    (s.resetLow = false → (s.tableChoice = none ↔ ∀ r, s.offer r = none)) ∧
    ∀ r, s.tableChoice = some r →
      s.offer r ≠ none ∧ ∀ q, s.offer q ≠ none → distance s.lastServed r ≤ distance s.lastServed q) ∧
  (∀ (s : State) (p : Port),
    let e := (s.port p).engine
    let offers (op : Option TableOp) : Prop := s.offer (.re p) = op
    (s.sessionState p = .resetting → offers none) ∧
    (s.sessionState p ≠ .resetting →
      (e.state = .idle → offers none) ∧
      (e.state = .waiting →
        (e.cancelMarker = true → offers (some .cancel)) ∧
        (e.cancelMarker = false → e.timer = none → offers (some .timeout)) ∧
        (e.cancelMarker = false → e.timer ≠ none → offers none)) ∧
      (e.state = .busy →
        (∀ m o, e.bulk = some m → m.phase = .stopped o → offers (some .endStep)) ∧
        (∀ m, e.bulk = some m → m.phase = .moving → offers none) ∧
        (e.bulk = none →
          (e.claimed ≠ none → offers (some .zeroFillStart)) ∧
          (e.claimed = none → e.close ≠ none → offers (some .closeStep)) ∧
          (e.claimed = none → e.close = none →
            (e.request = none → offers none) ∧
            ∀ r, e.request = some r →
              (r.code ∈ [.cancel, .setLease, .unmap, .attach, .detach, .quiesce, .resume, .setParam, .clearStatus] →
                offers none) ∧
              (r.code ∈ [.claim, .release, .adopt, .renew, .query, .openChannel, .closeChannel, .post, .take,
                  .channelStatus, .map, .fill, .copy, .setQuota] →
                offers (some (.request r.code)))))))) ∧
  (∀ (s : State) (p : Port),
    let t := (s.port p).teardown
    let offers (op : Option TableOp) : Prop := s.offer (.tu p) = op
    let endsFirst : Prop := t.endOwed = true ∧ ∃ m o, (s.port p).engine.bulk = some m ∧ m.phase = .stopped o
    (t.phase = .idle → offers none) ∧
    (t.phase = .fence → offers (some .fence)) ∧
    (t.phase = .roles ∨ t.phase = .channels ∨ t.phase = .final → endsFirst → offers (some .endStep)) ∧
    (¬endsFirst →
      (t.phase = .roles → offers (some .role)) ∧
      (t.phase = .channels → offers (some .channel)) ∧
      (t.phase = .final → t.endOwed = true → offers none) ∧
      (t.phase = .final → t.endOwed = false → offers (some .final)))) ∧
  (∀ s : State, (s.lmOffer = none → s.offer .lm = none) ∧ (s.lmOffer ≠ none → s.offer .lm = some .expiry)) ∧
  (∀ (s : State) (k : BankIx),
    (s.resetLow = true ∨ (s.arbiter k).current ≠ none → s.bankChoice k = none) ∧
    (s.resetLow = false → (s.arbiter k).current = none →
      let debt := (s.bankRefresh k).debt
      let waits (p : Port) : Prop := ∃ r, (s.port p).path = some r ∧ r.bank = k
      let distance (p : Port) : Nat := (p.val + 3 - (s.arbiter k).lastPort.val) % 4
      (debt ≠ 0 → s.urgentDebt ≤ debt → s.bankChoice k = some .refresh) ∧
      (debt = 0 ∨ debt < s.urgentDebt →
        (∀ p, waits p → (∀ q, waits q → distance p ≤ distance q) → s.bankChoice k = some (.port p)) ∧
        ((∀ p, ¬waits p) → s.bankChoice k = if debt = 0 then none else some .refresh))))

/-- The handle check that the requests with a handle make first, at their grant (R5): a handle without its valid marker completes RANGE,
one whose generation differs from the record's completes STALE_HANDLE. COPY checks its source, then its destination. -/
def Obligations.HandleCheckedFirst : Prop :=
  ∀ (p : Port) (s : State),
    (∀ (c : ReqCode) (i : Instr),
      c = .release ∨ c = .adopt ∨ c = .renew ∨ c = .query ∨ c = .post ∨ c = .map ∨ c = .fill →
      requestCommand p .carriedOut c = some i → s.grants (.re p) (.request c) = true →
      let h := s.operand p 0
      (h.getLsbD 15 = false → exec i s = .next (s.answered p .range).settle) ∧
      (h.getLsbD 15 = true → h.extractLsb' 8 7 ≠ (s.buf (Fin.ofNat 256 (h.toNat % 256))).generation →
        exec i s = .next (s.answered p .staleHandle).settle)) ∧
    (s.grants (.re p) (.request .copy) = true →
      let current (h : Word) : Prop :=
        h.getLsbD 15 = true ∧ h.extractLsb' 8 7 = (s.buf (Fin.ofNat 256 (h.toNat % 256))).generation
      let stale (h : Word) : Prop :=
        h.getLsbD 15 = true ∧ h.extractLsb' 8 7 ≠ (s.buf (Fin.ofNat 256 (h.toNat % 256))).generation
      ((s.operand p 0).getLsbD 15 = false → exec (.copy p .carriedOut) s = .next (s.answered p .range).settle) ∧
      (stale (s.operand p 0) → exec (.copy p .carriedOut) s = .next (s.answered p .staleHandle).settle) ∧
      (current (s.operand p 0) → (s.operand p 2).getLsbD 15 = false →
        exec (.copy p .carriedOut) s = .next (s.answered p .range).settle) ∧
      (current (s.operand p 0) → stale (s.operand p 2) →
        exec (.copy p .carriedOut) s = .next (s.answered p .staleHandle).settle))

/-! ## Pool requests (Chapters 1, 2 and 4) -/

/-- CLAIM with the port below its quota and a nonempty Free List (R37): the head leaves the list and is HELD by the port; without ZERO
the CLAIM completes OK with the handle, with ZERO the engine keeps it as its claimed handle. CLAIM that gets no buffer at once (R11,
R37, R38): at its quota it completes QUOTA; on an empty Free List it completes NO_BUFFER with timeout 0, and else joins the Claim Wait
List with its timer loaded. -/
def Obligations.ClaimRequest : Prop :=
  (∀ (p : Port) (s : State) (b : BufIx) (rest : List BufIx),
    s.grants (.re p) (.request .claim) = true → (s.port p).charge < (s.port p).quota → s.freeList = b :: rest →
    exec (.claim p .carriedOut) s = .next (State.settle
      ((((s.served (.re p)).setFreeList (rest)).modBuf b fun r =>
        r.handedTo p (s.port p).session.holdLease).modPort p fun x =>
          x.givenBuffer (handleOf (s.buf b).generation b) false))) ∧
  (∀ (p : Port) (s : State), s.grants (.re p) (.request .claim) = true →
    ((s.port p).quota ≤ (s.port p).charge → exec (.claim p .carriedOut) s = .next (s.answered p .quota).settle) ∧
    ((s.port p).charge < (s.port p).quota → s.freeList = [] → s.operand p 1 = 0 →
      exec (.claim p .carriedOut) s = .next (s.answered p .noBuffer).settle) ∧
    ((s.port p).charge < (s.port p).quota → s.freeList = [] → s.operand p 1 ≠ 0 →
      exec (.claim p .carriedOut) s = .next (State.settle
        (((s.served (.re p)).setClaimWait (s.claimWait ++ [p])).modEngine p fun e =>
          { e with
            state := .waiting, cancelMarker := false
            timer := some (if s.operand p 1 = 0xFFFF#16 then .noLimit else .count (s.operand p 1)) }))))

/-- RELEASE of a holding (R8, R39): the buffer enters FREE with the next generation; it goes to the oldest claim waiter below its quota,
whose CLAIM gets it, or to the tail of the Free List. RELEASE of a reader role (R3, R40): the entry leaves the readers list; a buffer
left with no role, nothing pending and bulk count 0 enters FREE in the same way; in every other case it stays in its place. -/
def Obligations.ReleaseRequest : Prop :=
  (∀ (p : Port) (s : State), s.grants (.re p) (.request .release) = true → s.checkHandle (s.operand p 0) = none →
    let b := handleIx (s.operand p 0)
    let r := s.buf b
    r.heldBy p = true → r.bulkCount = 0 → p ∉ s.claimWait →
    (s.nobodyToServe →
      exec (.release p .carriedOut) s = .next (State.settle
        ((((s.served (.re p)).setFreeList (s.freeList ++ [b])).modBuf b fun r =>
          { r with
            generation := r.generation + 1, holder := none, readers := [], pending := 0, channel := none,
            origin := none }).modPort p fun x => (x.givesUp b).completes .ok res0 false))) ∧
    (∀ q, s.claimWait.find? s.belowQuota = some q →
      exec (.release p .carriedOut) s = .next (State.settle
        (((((s.served (.re p)).setClaimWait (s.claimWait.erase q)).modBuf b fun r =>
          { r with
            generation := r.generation + 1, readers := [], pending := 0, channel := none, origin := none, length := 0,
            tag := 0,
            holder := some { port := q, lease := leaseOf (s.port q).session.holdLease } }).modPort p fun x =>
              (x.givesUp b).completes .ok res0 false).modPort q fun x =>
                x.givenBuffer (handleOf (r.generation + 1) b) true)))) ∧
  (∀ (p : Port) (s : State), s.grants (.re p) (.request .release) = true → s.checkHandle (s.operand p 0) = none →
    let b := handleIx (s.operand p 0)
    let r := s.buf b
    let left := r.readers.filter fun e => e.port != p
    r.holder = none → r.readBy p = true →
    (left ≠ [] ∨ r.pending ≠ 0 ∨ r.bulkCount ≠ 0 →
      exec (.release p .carriedOut) s = .next (State.settle
        (((s.served (.re p)).modBuf b fun r => { r with readers := left }).modPort p fun x =>
          (x.givesUp b).completes .ok res0 false))) ∧
    (left = [] → r.pending = 0 → r.bulkCount = 0 →
      exec (.release p .carriedOut) s = .next (State.settle
        ((((s.served (.re p)).modPort p fun x => x.givesUp b).entersFree b).modPort p fun x =>
          x.completes .ok res0 false))))

/-- What RELEASE, ADOPT and RENEW check after the handle (R39 to R41, R83): RELEASE and RENEW need a role of the port, RELEASE of a
holding a bulk count of 0; ADOPT a reader role, no other reader and nothing pending. A refused request changes nothing. What MAP, FILL
and COPY check after the handle, in order (R87, R106, R107). A refused request changes nothing. -/
def Obligations.RoleChecks : Prop :=
  (∀ (p : Port) (s : State), s.checkHandle (s.operand p 0) = none →
    let r := s.buf (handleIx (s.operand p 0))
    (s.grants (.re p) (.request .release) = true →
      (r.heldBy p = true → r.bulkCount ≠ 0 →
        exec (.release p .carriedOut) s = .next (s.answered p .busyBuffer).settle) ∧
      (r.heldBy p = false → r.readBy p = false →
        exec (.release p .carriedOut) s = .next (s.answered p .notHolder).settle)) ∧
    (s.grants (.re p) (.request .renew) = true → r.heldBy p = false → r.readBy p = false →
      exec (.renew p .carriedOut) s = .next (s.answered p .notHolder).settle) ∧
    (s.grants (.re p) (.request .adopt) = true →
      (r.readBy p = false → exec (.adopt p .carriedOut) s = .next (s.answered p .notHolder).settle) ∧
      (r.readBy p = true → r.readers.length ≠ 1 ∨ r.pending ≠ 0 →
        exec (.adopt p .carriedOut) s = .next (s.answered p .badState).settle))) ∧
  (∀ (p : Port) (s : State), s.checkHandle (s.operand p 0) = none →
    let r := s.buf (handleIx (s.operand p 0))
    let fits (o n : Nat) : Prop := o % 2 = 0 ∧ n % 2 = 0 ∧ 2 ≤ n ∧ o + n ≤ 512
    (s.grants (.re p) (.request .map) = true →
      (r.state ≠ .held → r.state ≠ .reading →
        exec (.map p .carriedOut) s = .next (s.answered p .badState).settle) ∧
      (r.state = .held ∨ r.state = .reading → r.heldBy p = false → r.readBy p = false →
        exec (.map p .carriedOut) s = .next (s.answered p .notHolder).settle) ∧
      (r.state = .held ∨ r.state = .reading → r.heldBy p = false → (s.operand p 1).getLsbD 1 = false →
        exec (.map p .carriedOut) s = .next (s.answered p .notHolder).settle)) ∧
    (s.grants (.re p) (.request .fill) = true →
      (r.heldBy p = false → exec (.fill p .carriedOut) s = .next (s.answered p .notHolder).settle) ∧
      (r.heldBy p = true → ¬fits (s.operand p 1).toNat (s.operand p 2).toNat →
        exec (.fill p .carriedOut) s = .next (s.answered p .range).settle)) ∧
    (s.grants (.re p) (.request .copy) = true → s.checkHandle (s.operand p 2) = none →
      let d := s.buf (handleIx (s.operand p 2))
      ((r.heldBy p = false ∧ r.readBy p = false) ∨ d.heldBy p = false →
        exec (.copy p .carriedOut) s = .next (s.answered p .notHolder).settle) ∧
      (r.heldBy p = true ∨ r.readBy p = true → d.heldBy p = true →
        ¬(fits (s.operand p 1).toNat (s.operand p 4).toNat ∧ fits (s.operand p 3).toNat (s.operand p 4).toNat) →
        exec (.copy p .carriedOut) s = .next (s.answered p .range).settle)))

/-- ADOPT (R41): the sole reader, with nothing pending, becomes the holder; length, tag and generation stay, origin becomes absent, and
the charge does not change. RENEW (R83): a role without a lease keeps none and RES0 is 0; a lease restarts at the policy value at stage
NORMAL, which RES0 gives, or is dropped when that value is 0. One clause for a holding, one for a reader role. -/
def Obligations.AdoptAndRenew : Prop :=
  (∀ (p : Port) (s : State) (e : Role), s.grants (.re p) (.request .adopt) = true →
    s.checkHandle (s.operand p 0) = none →
    let b := handleIx (s.operand p 0)
    (s.buf b).readers = [e] → e.port = p → (s.buf b).pending = 0 →
    exec (.adopt p .carriedOut) s = .next (State.settle
      (((s.served (.re p)).modBuf b fun r =>
        { r with
          holder := some { port := p, lease := leaseOf (s.port p).session.holdLease }, readers := [],
          origin := none }).modPort p fun x =>
            x.completes .ok (res4 (handleOf (s.buf b).generation b) 0 0 0) false))) ∧
  (∀ (p : Port) (s : State), s.grants (.re p) (.request .renew) = true → s.checkHandle (s.operand p 0) = none →
    let b := handleIx (s.operand p 0)
    let r := s.buf b
    let renewed (l : Option Lease) (policy : Word) : Option Lease :=
      if l = none ∨ policy = 0 then none else some { remaining := policy, stage := .normal }
    let answer (l : Option Lease) (policy : Word) : Word := if l = none then 0 else policy
    (∀ l, r.holder = some { port := p, lease := l } →
      exec (.renew p .carriedOut) s = .next (State.settle
        (((s.served (.re p)).modBuf b fun r =>
          { r with holder := some { port := p, lease := renewed l (s.port p).session.holdLease } }).modPort p fun x =>
            x.completes .ok (res4 (answer l (s.port p).session.holdLease) 0 0 0) false))) ∧
    (∀ l front back, r.holder = none → r.readers = front ++ { port := p, lease := l } :: back →
      (r.readers.map Role.port).Nodup →
      exec (.renew p .carriedOut) s = .next (State.settle
        (((s.served (.re p)).modBuf b fun r =>
          { r with
            readers := front ++ { port := p, lease := renewed l (s.port p).session.readLease } :: back }).modPort p
              fun x => x.completes .ok (res4 (answer l (s.port p).session.readLease) 0 0 0) false))))

/-- QUERY (R42) and CHANNEL_STATUS (R66) report a record to any port and change nothing but the result: QUERY any buffer with a current
handle, CHANNEL_STATUS any channel 0 to 15, other numbers completing RANGE. The words of both are written out bit by bit as R168 lays them
out, highest bits first, an absent field in its empty form. -/
def Obligations.ReportingRequests : Prop :=
  ∀ (p : Port) (s : State),
    (s.grants (.re p) (.request .query) = true → s.checkHandle (s.operand p 0) = none →
      let r := s.buf (handleIx (s.operand p 0))
      let state : BitVec 3 := match r.state with
        | .free => 0
        | .held => 1
        | .queued => 2
        | .reading => 3
        | .draining => 4
      let readers : PortMask :=
        BitVec.ofBool (r.readBy 3) ++ BitVec.ofBool (r.readBy 2) ++ BitVec.ofBool (r.readBy 1) ++ BitVec.ofBool (r.readBy 0)
      let holder : BitVec 2 := match r.holder with
        | some h => BitVec.ofFin h.port
        | none => 0
      let channel : BitVec 4 := match r.channel with
        | some c => BitVec.ofFin c
        | none => 0
      let origin : BitVec 2 := match r.origin with
        | some o => BitVec.ofFin o
        | none => 0
      exec (.query p .carriedOut) s = .next (State.settle ((s.served (.re p)).modPort p fun x =>
        x.completes .ok
          #v[0#4 ++ readers ++ 0#2 ++ holder ++ BitVec.ofBool r.holder.isSome ++ state,
            BitVec.ofNat 16 r.length,
            r.tag,
            BitVec.ofBool r.origin.isSome ++ origin ++ BitVec.ofBool r.channel.isSome ++ channel ++ 0#4 ++ r.pending]
          false))) ∧
    (s.grants (.re p) (.request .channelStatus) = true →
      (∀ c : ChanIx, (s.operand p 0).toNat = c.val →
        let reports (state : BitVec 2) (u : ChanSetup) : Prop :=
          exec (.channelStatus p .carriedOut) s = .next (State.settle ((s.served (.re p)).modPort p fun x =>
            x.completes .ok
              #v[0#8 ++ 1#1 ++ BitVec.ofBool (u.notice == .edge) ++ BitVec.ofBool (u.policy == .displaceOldest) ++
                  BitVec.ofBool (u.kind == .fanout) ++ 0#2 ++ state,
                BitVec.ofNat 16 (s.chan c).queue.length,
                BitVec.ofNat 16 u.capacity,
                0#4 ++ u.sources ++ 0#4 ++ u.destinations]
              false))
        (∀ u, (s.chan c).status = .opened u → reports 1 u) ∧
        (∀ u q, (s.chan c).status = .closing u q → reports 2 u) ∧
        ((s.chan c).status = .closed → (s.chan c).queue = [] →
          exec (.channelStatus p .carriedOut) s = .next (State.settle ((s.served (.re p)).modPort p fun x =>
            x.completes .ok #v[0, 0, 0, 0] false)))) ∧
      (16 ≤ (s.operand p 0).toNat →
        exec (.channelStatus p .carriedOut) s = .next (s.answered p .range).settle))

/-! ## Channels (Chapter 3) -/

/-- OPEN_CHANNEL whose checks pass (R46, R47): the channel is OPEN with the given fields, its queue and take-waiter set empty, and every
destination but the opener is handed CHANNEL_OPENED. -/
def Obligations.OpenChannelOpens : Prop :=
  ∀ (p : Port) (s : State) (c : ChanIx), s.grants (.re p) (.request .openChannel) = true →
    (s.operand p 0).toNat = c.val → (s.chan c).status = .closed →
    let o := s.operands p
    let u : ChanSetup :=
      { kind := if (s.operand p 1).getLsbD 8 then .fanout else .unicast
        destinations := (s.operand p 1).extractLsb' 0 4
        sources := (s.operand p 2).extractLsb' 0 4
        capacity := (s.operand p 3).toNat
        policy := if (s.operand p 4).getLsbD 0 then .displaceOldest else .refuse
        notice := if (s.operand p 4).getLsbD 1 then .edge else .every }
    setupOperand o = u ∧
    ((if u.kind = .unicast then (maskPorts u.destinations).length = 1 else 2 ≤ (maskPorts u.destinations).length) →
      maskHas u.destinations p = true → (∀ q, maskHas u.destinations q = true → s.attached q = true) →
      u.sources ≠ 0 → 1 ≤ u.capacity → u.capacity ≤ 255 →
      exec (.openChannel p .carriedOut) s = .next (State.settle
        ((((s.served (.re p)).setChan c { status := .opened u, queue := [], takeWaiters := 0 }).placeAll
          ((maskPorts u.destinations).filter fun q => q != p) (mkRecord .channelOpened c.val 0)).modPort p fun x =>
            x.completes .ok res0 false)))

/-- What OPEN_CHANNEL, TAKE and CLOSE_CHANNEL check, in order (R46, R56, R60). A refused request changes nothing. What POST checks after
the handle, in order (R48, R52). A refused POST changes nothing. -/
def Obligations.ChannelChecks : Prop :=
  (∀ (p : Port) (s : State),
    (s.grants (.re p) (.request .openChannel) = true →
      let u := setupOperand (s.operands p)
      let suits := if u.kind = .unicast then (maskPorts u.destinations).length = 1 else 2 ≤ (maskPorts u.destinations).length
      (16 ≤ (s.operand p 0).toNat → exec (.openChannel p .carriedOut) s = .next (s.answered p .range).settle) ∧
      ∀ c : ChanIx, (s.operand p 0).toNat = c.val →
        ((s.chan c).status ≠ .closed →
          exec (.openChannel p .carriedOut) s = .next (s.answered p .badState).settle) ∧
        ((s.chan c).status = .closed → ¬suits →
          exec (.openChannel p .carriedOut) s = .next (s.answered p .range).settle) ∧
        ((s.chan c).status = .closed → suits → maskHas u.destinations p = false →
          exec (.openChannel p .carriedOut) s = .next (s.answered p .notDestination).settle) ∧
        ((s.chan c).status = .closed → suits → maskHas u.destinations p = true →
          (∃ q, maskHas u.destinations q = true ∧ s.attached q = false) →
          exec (.openChannel p .carriedOut) s = .next (s.answered p .session).settle) ∧
        ((s.chan c).status = .closed → suits → maskHas u.destinations p = true →
          (∀ q, maskHas u.destinations q = true → s.attached q = true) →
          u.sources = 0 ∨ u.capacity = 0 ∨ 256 ≤ u.capacity →
          exec (.openChannel p .carriedOut) s = .next (s.answered p .range).settle)) ∧
    (s.grants (.re p) (.request .take) = true →
      (16 ≤ (s.operand p 0).toNat → exec (.take p .carriedOut) s = .next (s.answered p .range).settle) ∧
      ∀ c : ChanIx, (s.operand p 0).toNat = c.val →
        ((∀ u, (s.chan c).status ≠ .opened u) →
          exec (.take p .carriedOut) s = .next (s.answered p .channelClosed).settle) ∧
        ∀ u, (s.chan c).status = .opened u →
          (maskHas u.destinations p = false →
            exec (.take p .carriedOut) s = .next (s.answered p .notDestination).settle) ∧
          (maskHas u.destinations p = true → (s.port p).quota ≤ (s.port p).charge →
            exec (.take p .carriedOut) s = .next (s.answered p .quota).settle)) ∧
    (s.grants (.re p) (.request .closeChannel) = true →
      (16 ≤ (s.operand p 0).toNat → exec (.closeChannel p .carriedOut) s = .next (s.answered p .range).settle) ∧
      ∀ c : ChanIx, (s.operand p 0).toNat = c.val →
        ((∀ u, (s.chan c).status ≠ .opened u) →
          exec (.closeChannel p .carriedOut) s = .next (s.answered p .channelClosed).settle) ∧
        ∀ u, (s.chan c).status = .opened u → maskHas u.destinations p = false → s.supervises p = false →
          exec (.closeChannel p .carriedOut) s = .next (s.answered p .notDestination).settle)) ∧
  (∀ (p : Port) (s : State), s.grants (.re p) (.request .post) = true → s.checkHandle (s.operand p 0) = none →
    let r := s.buf (handleIx (s.operand p 0))
    let refusedWith (e : ResultCode) : Prop := exec (.post p .carriedOut) s = .next (s.answered p e).settle
    (r.heldBy p = false → refusedWith .notHolder) ∧
    (r.heldBy p = true → r.bulkCount ≠ 0 → refusedWith .busyBuffer) ∧
    (r.heldBy p = true → r.bulkCount = 0 →
      (16 ≤ (s.operand p 1).toNat → refusedWith .range) ∧
      ∀ c : ChanIx, (s.operand p 1).toNat = c.val →
        ((∀ u, (s.chan c).status ≠ .opened u) → refusedWith .channelClosed) ∧
        ∀ u, (s.chan c).status = .opened u →
          (maskHas u.sources p = false → refusedWith .notSource) ∧
          (maskHas u.sources p = true → 513 ≤ (s.operand p 2).toNat → refusedWith .range) ∧
          (maskHas u.sources p = true → (s.operand p 2).toNat ≤ 512 → u.policy = .refuse →
            u.capacity ≤ (s.chan c).queue.length →
            (∃ q, maskHas u.destinations q = true ∧
              (maskHas (s.chan c).takeWaiters q = false ∨ (s.port q).quota ≤ (s.port q).charge)) →
            refusedWith .queueFull)))

/-- A POST that displaces nothing (R49 to R51, R54): the holding ends and the record carries length, tag, origin and pending set; each
destination that waits below its quota becomes a reader at once and its TAKE completes OK with handle, length, tag and origin, one that
waits at its quota is passed over and waits on. With no destination left pending the buffer joins no queue. Otherwise the queue has room:
the buffer joins it at the tail, or with HEAD at the head, pending for those left, and those attached get ARRIVAL by the notice mode. The
POST completes OK with the queue's length. One destination of a UNICAST channel and several of a FANOUT channel are cases of this; the
terms takersAt, leftPending and posts of Safety.lean write it out. -/
def Obligations.PostRequest : Prop :=
  ∀ (p : Port) (s : State) (c : ChanIx) (u : ChanSetup),
    s.grants (.re p) (.request .post) = true → s.checkHandle (s.operand p 0) = none →
    let b := handleIx (s.operand p 0)
    let q := (s.chan c).queue
    let left := s.leftPending c
    (s.buf b).heldBy p = true → (s.buf b).bulkCount = 0 → (s.operand p 1).toNat = c.val →
    (s.chan c).status = .opened u → maskHas u.sources p = true → (s.operand p 2).toNat ≤ 512 →
    maskHas (s.chan c).takeWaiters p = false → b ∉ q →
    (left = 0 →
      exec (.post p .carriedOut) s = .next (State.settle
        (((s.served (.re p)).posts p c u q).modPort p fun x =>
          x.completes .ok (res4 (BitVec.ofNat 16 q.length) 0 0 0) false))) ∧
    (left ≠ 0 → q.length < u.capacity →
      exec (.post p .carriedOut) s = .next (State.settle
        (((s.served (.re p)).posts p c u q).modPort p fun x =>
          x.completes .ok (res4 (BitVec.ofNat 16 (q.length + 1)) 0 0 0) false)))

/-- A POST to a full channel of DISPLACE_OLDEST that leaves a destination pending (R53, R55): the head entry leaves the queue first, with
its pending set emptied. With readers its buffer stays READING and no record is placed. Without readers its attached origin is handed
DISPLACED with the handle it posted, before any other record of the POST, and its buffer enters FREE, where it may go to a claim waiter,
or is DRAINING while its bulk count is above 0. The new entry then joins the queue, which is full again, and all else is as without a
displacement. -/
def Obligations.PostDisplacesOldest : Prop :=
  ∀ (p : Port) (s : State) (c : ChanIx) (u : ChanSetup) (d : BufIx) (rest : List BufIx),
    s.grants (.re p) (.request .post) = true → s.checkHandle (s.operand p 0) = none →
    let b := handleIx (s.operand p 0)
    (s.buf b).heldBy p = true → (s.buf b).bulkCount = 0 → (s.operand p 1).toNat = c.val →
    (s.chan c).status = .opened u → maskHas u.sources p = true → (s.operand p 2).toNat ≤ 512 →
    u.policy = .displaceOldest → maskHas (s.chan c).takeWaiters p = false → b ∉ d :: rest → (d :: rest).Nodup →
    (s.chan c).queue = d :: rest → (s.chan c).queue.length = u.capacity → s.leftPending c ≠ 0 →
    let told : State :=
      if (s.buf d).readers = [] then (s.served (.re p)).originTold .displaced c d else s.served (.re p)
    exec (.post p .carriedOut) s = .next (State.settle
      ((((told.posts p c u rest).modBuf d fun r => { r with pending := 0, channel := none }).lastUsed d).modPort p fun x =>
        x.completes .ok (res4 (BitVec.ofNat 16 u.capacity) 0 0 0) false))

/-- TAKE whose first four checks pass (R56, R57): with an eligible entry, the head on a UNICAST channel and the first entry with the
port pending on a FANOUT channel, the port becomes its reader and learns handle, length, tag and origin, and the entry leaves the queue
once nothing is pending; without one, it completes QUEUE_EMPTY with timeout 0 and else waits on the channel. -/
def Obligations.TakeGivesOrWaits : Prop :=
  ∀ (p : Port) (s : State) (c : ChanIx) (u : ChanSetup), s.grants (.re p) (.request .take) = true →
    (s.operand p 0).toNat = c.val → (s.chan c).status = .opened u → maskHas u.destinations p = true →
    (s.port p).charge < (s.port p).quota →
    let q := (s.chan c).queue
    let eligible := if u.kind = .unicast then q.head? else q.find? fun b => maskHas (s.buf b).pending p
    (∀ b, eligible = some b →
      let left := maskErase (s.buf b).pending p
      exec (.take p .carriedOut) s = .next (State.settle
        ((((s.served (.re p)).modBuf b fun r =>
          { r with
            readers := r.readers ++ [{ port := p, lease := leaseOf (s.port p).session.readLease }], pending := left,
            channel := if left = 0 then none else r.channel }).modChan c fun x =>
              { x with queue := if left = 0 then q.erase b else q }).modPort p fun x =>
                ({ x with charge := x.charge + 1 } : PortState).completes .ok ((s.buf b).takeWords b) false))) ∧
    (eligible = none → s.operand p 1 = 0 →
      exec (.take p .carriedOut) s = .next (s.answered p .queueEmpty).settle) ∧
    (eligible = none → s.operand p 1 ≠ 0 →
      exec (.take p .carriedOut) s = .next (State.settle
        (((s.served (.re p)).modChan c fun x => { x with takeWaiters := maskInsert x.takeWaiters p }).modEngine p fun e =>
          { e with
            state := .waiting, cancelMarker := false
            timer := some (if s.operand p 1 = 0xFFFF#16 then .noLimit else .count (s.operand p 1)) })))

/-- The first step of a close (R60), by a destination or the supervising port: the channel becomes CLOSING under the port, its take
waiters complete CHANNEL_CLOSED, and the engine goes on BUSY with the close. The last step (R62), which finds the queue empty: the
channel becomes CLOSED, attached destinations other than the closer get CHANNEL_CLOSED, and the request completes OK with its counts. A
close step that disposes of the head entry (R61): with readers the buffer stays READING; else it returns to an attached origin below its
quota with RETURNED; else an attached origin gets DISCARDED with the handle it posted, and the buffer enters FREE, where it may go to a
claim waiter, or is DRAINING while its bulk count is above 0. A close ended in another way completes with its counts (R63). -/
def Obligations.CloseSequence : Prop :=
  ((∀ (p : Port) (s : State) (c : ChanIx) (u : ChanSetup), s.grants (.re p) (.request .closeChannel) = true →
    (s.operand p 0).toNat = c.val → (s.chan c).status = .opened u →
    maskHas u.destinations p = true ∨ s.supervises p = true →
    maskHas (s.chan c).takeWaiters p = false →
    exec (.closeChannel p .carriedOut) s = .next (State.settle
      ((maskPorts (s.chan c).takeWaiters).foldl
        (fun t q => t.modPort q fun x => x.completes .channelClosed res0 true)
        (((s.served (.re p)).modChan c fun x => { x with status := .closing u p, takeWaiters := 0 }).modEngine p fun e =>
          { e with close := some { channel := c, returned := 0, discarded := 0 } })))) ∧
  (∀ (p : Port) (s : State) (g : CloseProgress) (u : ChanSetup), s.grants (.re p) .closeStep = true →
    (s.port p).engine.close = some g → (s.chan g.channel).status = .closing u p → (s.chan g.channel).queue = [] →
    exec (.closeLastStep p) s = .next (State.settle
      ((((s.served (.re p)).setChan g.channel { status := .closed, queue := [], takeWaiters := 0 }).placeAll
        ((maskPorts u.destinations).filter fun q => q != p && s.attached q)
        (mkRecord .channelClosed g.channel.val 0)).modPort p fun x =>
          x.completes .ok (res4 (BitVec.ofNat 16 g.returned) (BitVec.ofNat 16 g.discarded) 0 0) false)))) ∧
  (∀ (p : Port) (s : State) (g : CloseProgress), s.grants (.re p) .closeStep = true →
    (s.port p).engine.close = some g →
    let c := g.channel
    ((s.chan c).closer ≠ some p →
      exec (.closeStep p) s = .next (State.settle ((s.served (.re p)).modPort p fun x =>
        x.completes .ok (res4 (BitVec.ofNat 16 g.returned) (BitVec.ofNat 16 g.discarded) 0 0) false))) ∧
    ∀ (b : BufIx) (rest : List BufIx), (s.chan c).closer = some p → (s.chan c).queue = b :: rest →
      let base := s.served (.re p)
      ((s.buf b).readers ≠ [] →
        exec (.closeStep p) s = .next (State.settle (base.entryLeaves c b))) ∧
      (∀ o, (s.buf b).readers = [] → (s.buf b).origin = some o → s.attached o = true →
        (s.port o).charge < (s.port o).quota →
        exec (.closeStep p) s = .next (State.settle
          ((base.entryReturned c b o).modEngine p fun e =>
            { e with close := some { g with returned := g.returned + 1 } }))) ∧
      ((s.buf b).readers = [] →
        (∀ o, (s.buf b).origin = some o → s.attached o = false ∨ (s.port o).quota ≤ (s.port o).charge) →
        exec (.closeStep p) s = .next (State.settle
          ((base.entryDiscarded c b).modEngine p fun e =>
            { e with close := some { g with discarded := g.discarded + 1 } }))))

/-! ## Waits and leases (Chapter 4) -/

/-- The granted cancel operation (R34) and timeout operation (R70): the port leaves the Claim Wait List, or the take-waiter set it
stands in, and its request completes CANCELLED or TIMEOUT with result words 0 and the COMPLETE record of a request that waited. -/
def Obligations.WaitsEnd : Prop :=
  ∀ (p : Port) (s : State) (op : TableOp) (i : Instr) (code : ResultCode),
    (op = .cancel ∧ i = .cancelOperation p ∧ code = .cancelled) ∨
      (op = .timeout ∧ i = .timeoutOperation p ∧ code = .timeout) →
    s.grants (.re p) op = true →
    (p ∈ s.claimWait → (∀ c, maskHas (s.chan c).takeWaiters p = false) →
      exec i s = .next (State.settle
        (((s.served (.re p)).setClaimWait (s.claimWait.erase p)).modPort p fun x =>
          x.completes code res0 true))) ∧
    (∀ c, p ∉ s.claimWait → maskHas (s.chan c).takeWaiters p = true →
      (∀ d, maskHas (s.chan d).takeWaiters p = true → d = c) →
      exec i s = .next (State.settle
        (((s.served (.re p)).modChan c fun x => { x with takeWaiters := maskErase x.takeWaiters p }).modPort p fun x =>
          x.completes code res0 true)))

/-- An expiry operation (R77): it takes the entry at the offered position. When one of its four checks fails it changes nothing else; a
role at stage NORMAL under a grace above 0 is warned (R78): stage WARNED, remaining time the grace, and LEASE_WARN to its port. An
expiry operation that reclaims a role (R79 to R82): at stage WARNED, or with grace 0. The port is handed RECLAIMED with the handle as it
stood, its windows of the buffer become STALE, its charge falls by one, and an operation of its mover that uses the role is marked. A
buffer left with no role, nothing pending and bulk count 0 enters FREE, where it may go to a claim waiter; any other stays as its record
is. Last, a port that still waits is served: by claim service when it stands on the Claim Wait List (R9), by take service when it waits
on a channel (R59); the terms lastUsed, claimServed and waitServed of Safety.lean write that out. -/
def Obligations.LeaseExpiry : Prop :=
  (∀ (s : State) (x : Position) (e : ExpiryEntry), s.grants .lm .expiry = true → s.lmOffer = some x →
    expiryLookup s.expiry x = some e →
    let base : State := (s.served .lm).takeEntry x
    let b := x.buffer
    ((s.buf b).generation ≠ e.generation ∨ s.roleAt x = none ∨
        (∃ r, s.roleAt x = some r ∧
          ((x.role = .holder ∧ e.holder ≠ some r.port) ∨ (∀ l, r.lease = some l → l.remaining ≠ 0) ∨
            s.sessionState r.port = .resetting)) →
      exec .expiryOperation s = .next base.settle) ∧
    (∀ r : Role, (s.buf b).generation = e.generation → s.roleAt x = some r →
      (x.role = .holder → e.holder = some r.port) → r.lease = some { remaining := 0, stage := .normal } →
      s.attached r.port = true → (s.port r.port).session.grace ≠ 0 →
      let warned : Role := { r with lease := some { remaining := (s.port r.port).session.grace, stage := .warned } }
      ∃ t, exec .expiryOperation s = .next t ∧
        t.buf b =
          (if x.role = .holder then { s.buf b with holder := some warned }
          else { s.buf b with readers := (s.buf b).readers.map fun y => if y.port = r.port then warned else y }) ∧
        (∀ d, d ≠ b → t.buf d = s.buf d) ∧
        (t.port r.port).notes = (s.port r.port).notes.hand
          { kind := .leaseWarn, subject := handleOf (s.buf b).generation b
            value := if x.role = .holder then 0 else 1 } ∧
        (∀ q, q ≠ r.port → (t.port q).notes = (s.port q).notes) ∧
        (∀ q, (t.port q).charge = (s.port q).charge ∧ (t.port q).windowA = (s.port q).windowA ∧
          (t.port q).windowB = (s.port q).windowB) ∧
        t.expiry = base.expiry ∧ t.channels = s.channels ∧ t.freeList = s.freeList ∧ t.claimWait = s.claimWait)) ∧
  (∀ (s : State) (x : Position) (e : ExpiryEntry) (r : Role) (l : Lease), s.grants .lm .expiry = true →
    s.lmOffer = some x → expiryLookup s.expiry x = some e →
    let b := x.buffer
    let p := r.port
    (s.buf b).generation = e.generation → s.roleAt x = some r → (x.role = .holder → e.holder = some p) →
    r.lease = some l → l.remaining = 0 → s.attached p = true → l.stage = .warned ∨ (s.port p).session.grace = 0 →
    s.claimWait.Nodup →
    let record : Record :=
      { kind := .reclaimed, subject := handleOf (s.buf b).generation b, value := if x.role = .holder then 0 else 1 }
    let base : State := (s.served .lm).takeEntry x
    (x.role = .holder →
      let lost (y : PortState) : PortState :=
        ({ y with notes := y.notes.hand record } : PortState).loses b (y.engine.bulk.any fun m => m.uses b)
      exec .expiryOperation s = .next (State.settle
        ((((base.modBuf b fun y => { y with holder := none }).modPort p lost).lastUsed b).waitServed p))) ∧
    (x.role = .reader p →
      let lost (y : PortState) : PortState :=
        ({ y with notes := y.notes.hand record } : PortState).loses b (y.engine.bulk.any fun m => m.readsFrom b)
      exec .expiryOperation s = .next (State.settle
        ((((base.modBuf b fun y => { y with readers := y.readers.filter fun z => z.port != p }).modPort p lost).lastUsed
          b).waitServed p))))

/-! ## Ticks (Chapters 4, 7 and 10) -/

/-- A µs tick that is neither a ms tick nor an interval expiry (R127, R159): the divider returns to 0 and both counters rise by one. Every
row is one tick older; on the tick on which a row's age passes the retention time its cells are dropped and its epoch advances, and every
other row keeps its bytes (R130, 11.6; the moment and the epoch are the model's choice, log 8). So it is on every tick: the bytes of the
row read as the free value of the new epoch, whatever that value is, and the cells listed are those of the other rows. MS_TICK,
INTERVAL_EXPIRY, WAIT_TIMER_EXPIRY and LEASE_RUN_OUT are the µs tick when it brings their event about, and without effect when it does not
(log 6). -/
def Obligations.MicrosecondTick : Prop :=
  ∀ s : State, s.resetLow = false →
    (s.msCounter + 1 < 1000 → s.intervalCounter + 1 < s.refreshInterval →
      exec .usTick s = .next (State.settle
        { s.rowsTick with usDivider := 0, msCounter := s.msCounter + 1, intervalCounter := s.intervalCounter + 1 })) ∧
    (∃ t, exec .usTick s = .next t ∧ t.usDivider = 0 ∧
      (∀ r, t.rows.get r =
        if (s.rows.get r).age < Config.retentionTicks then { s.rows.get r with age := (s.rows.get r).age + 1 }
        else { age := (s.rows.get r).age + 1, epoch := (s.rows.get r).epoch + 1 }) ∧
      (∀ e, e ∈ t.array ↔ e ∈ s.array ∧ (s.rows.get (Fin.ofNat 512 (e.1 / 256))).age < Config.retentionTicks) ∧
      ∀ b o,
        (arrayWf s.array = true → (s.rows.get (arrayRow b o)).age < Config.retentionTicks → t.bufByte b o = s.bufByte b o) ∧
        (Config.retentionTicks ≤ (s.rows.get (arrayRow b o)).age →
          t.bufByte b o =
            { byte := Config.undefinedByte ((s.rows.get (arrayRow b o)).epoch + 1) (cellKey b o)
              parity := Config.undefinedParity ((s.rows.get (arrayRow b o)).epoch + 1) (cellKey b o) })) ∧
    exec .msTick s = (if 1000 ≤ s.msCounter + 1 then exec .usTick s else .next s.settle) ∧
    exec .intervalExpiry s =
      (if s.refreshInterval ≤ s.intervalCounter + 1 then exec .usTick s else .next s.settle) ∧
    (∀ p, exec (.waitTimerExpiry p) s =
      (if 1000 ≤ s.msCounter + 1 ∧ (s.port p).timerDue = true then exec .usTick s else .next s.settle)) ∧
    ∀ b r, exec (.leaseRunOut b r) s =
      (if 1000 ≤ s.msCounter + 1 ∧ (∃ e, s.roleAt { buffer := b, role := r } = some e ∧ s.leaseDue e = true)
        then exec .usTick s else .next s.settle)

/-- The ms tick (R67, R76, R85, R138): the ms counter returns to 0; the wait timer of a WAITING engine of an ACTIVE port that no CANCEL
has stopped is lowered by one and expires at 0, one with no limit never; the lease of every role of an ACTIVE port with time left is
lowered by one, and a role brought to 0 has its entry at its position of the expiry list. Other timers, leases and entries stay. Of the
rest of the device the tick changes nothing but the divider, the interval counter and the debts and flags of the Refresh Engine, the rows'
retention time and the queues that an interval expiry on the same tick hands its records (R127, R130; log 8): windows, queues else,
sessions, charges, quotas, channels, Free List and Claim Wait List stay, and the paths present and the Lease Monitor offers by themselves.
WAIT_TIMER_EXPIRY (R67): the tick that brings the timer to 0 ends it, the engine stays WAITING and offers its timeout operation.
LEASE_RUN_OUT (R76): the tick that brings the role's time to 0 leaves the role in place with remaining time 0. -/
def Obligations.MillisecondTick : Prop :=
  (∀ s : State, s.resetLow = false → 1000 ≤ s.msCounter + 1 → ∃ t, exec .msTick s = .next t ∧ t.msCounter = 0 ∧
    t =
      { s with
        ports := t.ports, buffers := t.buffers, expiry := t.expiry, sweep := t.sweep, lmOffer := t.lmOffer, refresh := t.refresh
        intervalCounter := if s.refreshInterval ≤ s.intervalCounter + 1 then 0 else s.intervalCounter + 1
        usDivider := 0, msCounter := 0, rows := s.rowsTick.rows, array := s.rowsTick.array } ∧
    (s.intervalCounter + 1 < s.refreshInterval → t.refresh = s.refresh) ∧
    (∀ p, t.port p = PortState.present
      { s.port p with
        notes := s.notesTick p
        engine :=
          { (s.port p).engine with
            timer :=
              if (s.port p).engine.state = .waiting ∧ (s.port p).engine.cancelMarker = false ∧ s.sessionState p = .active then
                match (s.port p).engine.timer with
                | some (.count n) => if n.toNat ≤ 1 then none else some (.count (n - 1))
                | other => other
              else (s.port p).engine.timer } }) ∧
    (∀ x : Position,
      (∀ e ∈ (match x.role with
        | .holder => (s.buf x.buffer).holder.toList
        | .reader p => (s.buf x.buffer).readers.filter fun e => e.port == p),
        ∀ st, e.lease = some { remaining := 1, stage := st } → s.sessionState e.port ≠ .active) →
      expiryLookup t.expiry x = expiryLookup s.expiry x) ∧
    (let counted (e : Role) : Role :=
      match e.lease with
      | some l => if s.sessionState e.port = .active ∧ l.remaining ≠ 0
          then { e with lease := some { l with remaining := l.remaining - 1 } } else e
      | none => e
    ∀ b, t.buf b = { s.buf b with
      holder := (s.buf b).holder.map counted, readers := (s.buf b).readers.map counted }) ∧
    (∀ b e st, (s.buf b).holder = some { port := e, lease := some { remaining := 1, stage := st } } →
      s.sessionState e = .active →
      expiryLookup t.expiry { buffer := b, role := .holder } =
        some { generation := (s.buf b).generation, holder := some e }) ∧
    (∀ b e st, { port := e, lease := some { remaining := 1, stage := st } } ∈ (s.buf b).readers →
      s.sessionState e = .active →
      expiryLookup t.expiry { buffer := b, role := .reader e } =
        some { generation := (s.buf b).generation, holder := none })) ∧
  ((∀ (p : Port) (s : State), s.resetLow = false → 1000 ≤ s.msCounter + 1 → (s.port p).engine.state = .waiting →
    (s.port p).engine.cancelMarker = false → s.sessionState p = .active →
    (s.port p).engine.timer = some (.count 1#16) →
    ∃ t, exec (.waitTimerExpiry p) s = .next t ∧ (t.port p).engine.timer = none ∧
      (t.port p).engine.state = .waiting ∧ t.offer (.re p) = some .timeout ∧ t.claimWait = s.claimWait ∧
      t.channels = s.channels) ∧
  (∀ (b : BufIx) (role : LeaseRole) (e : Role) (st : Stage) (s : State), s.resetLow = false → 1000 ≤ s.msCounter + 1 →
    s.roleAt { buffer := b, role := role } = some e → s.sessionState e.port = .active →
    e.lease = some { remaining := 1, stage := st } →
    ∃ t, exec (.leaseRunOut b role) s = .next t ∧
      t.roleAt { buffer := b, role := role } = some { e with lease := some { remaining := 0, stage := st } } ∧
      ∀ d, (t.buf d).state = (s.buf d).state ∧ (t.buf d).generation = (s.buf d).generation))

/-- An interval expiry (R127, R128, R130): the counter returns to 0; at each bank a debt below 8 rises by one, and at 8 the bank's flag is
set; each attached port is handed one REFRESH_MISSED for each bank that misses, in ascending bank number, and no other port any. When it
is no ms tick, nothing else changes but the divider, the ms counter and the rows' retention time (log 8). ROW_REFRESH (R125, R126, R129):
granted when the bank's choice is its refresh, it occupies the bank and leaves the last-granted port; carried out, the row's retention
time begins again, the pointer advances modulo 128, the debt falls by one and the bank is free. No stored byte changes. -/
def Obligations.RefreshEngine : Prop :=
  (∀ s : State, s.resetLow = false → s.refreshInterval ≤ s.intervalCounter + 1 →
    ∃ t, exec .intervalExpiry s = .next t ∧ t.intervalCounter = 0 ∧
      (∀ k, ((s.bankRefresh k).debt < 8 →
          t.bankRefresh k = { s.bankRefresh k with debt := (s.bankRefresh k).debt + 1 }) ∧
        (8 ≤ (s.bankRefresh k).debt → t.bankRefresh k = { s.bankRefresh k with missed := true })) ∧
      (∀ q, (t.port q).notes =
        if s.attached q then
          (([0, 1, 2, 3] : List BankIx).filter fun k => 8 ≤ (s.bankRefresh k).debt).foldl
            (fun x k => x.hand { kind := .refreshMissed, subject := BitVec.ofNat 16 k.val, value := 0 }) (s.port q).notes
        else (s.port q).notes) ∧
      t.rows = s.rowsTick.rows ∧ t.array = s.rowsTick.array ∧
      (s.msCounter + 1 < 1000 →
        t =
          { s with
            ports := t.ports, refresh := t.refresh, sweep := t.sweep, lmOffer := t.lmOffer
            intervalCounter := 0, usDivider := 0, msCounter := s.msCounter + 1
            rows := s.rowsTick.rows, array := s.rowsTick.array } ∧
        ∀ q, t.port q = PortState.present { s.port q with notes := s.notesTick q })) ∧
  (∀ (k : BankIx) (s : State),
    (s.bankChoice k = some .refresh →
      exec (.rowRefresh k .granted) s =
        .next (State.settle (s.modArbiter k fun a => { a with current := some .refresh }))) ∧
    (s.resetLow = false → (s.arbiter k).current = some .refresh →
      ∃ t, exec (.rowRefresh k .carriedOut) s = .next t ∧
        t.arbiter k = { s.arbiter k with current := none } ∧
        t.bankRefresh k =
          { s.bankRefresh k with
            rowPointer := (s.bankRefresh k).rowPointer + 1, debt := (s.bankRefresh k).debt - 1 } ∧
        (∀ r : Fin 512, t.rows.get r =
          if r.val = k.val * 128 + (s.bankRefresh k).rowPointer.val then { s.rows.get r with age := 0 }
          else s.rows.get r) ∧
        (∀ j, j ≠ k → t.arbiter j = s.arbiter j ∧ t.bankRefresh j = s.bankRefresh j) ∧
        (∀ b o, t.bufByte b o = s.bufByte b o) ∧ t.buffers = s.buffers ∧ t.channels = s.channels))

/-! ## Windows and the stream (Chapter 5) -/

/-- MAP (R87, R88, R104): the window gets the handle, the mode and the buffer's length, the other window stays, and the stream is re-armed
when it works through that window, an open access of the port keeping its offset, also one not yet presented at its bank, which is the
model's choice (log 28); the request completes OK. UNMAP (R89): the window becomes UNMAPPED whatever it was, without a table operation;
pointer, settings and the other window stay. -/
def Obligations.MapAndUnmap : Prop :=
  (∀ (p : Port) (s : State), s.grants (.re p) (.request .map) = true → s.checkHandle (s.operand p 0) = none →
    let r := s.buf (handleIx (s.operand p 0))
    let sel : WindowSel := if (s.operand p 1).getLsbD 0 then .b else .a
    let mode : WindowMode := if (s.operand p 1).getLsbD 1 then .ro else .rw
    r.heldBy p = true ∨ (r.readBy p = true ∧ r.holder = none ∧ mode = .ro) →
    exec (.map p .carriedOut) s = .next (State.settle ((s.served (.re p)).modPort p fun x =>
      let y := x.setWindow sel (.mapped { handle := s.operand p 0, mode := mode, length := r.length })
      (if x.stream.select = sel then
        { y with
          stream :=
            { x.stream with pointer := 0, prefixDue := x.stream.lengthPrefix && x.stream.direction == .read }
          access := x.access.map fun a => { a with rearmed := true } }
      else y).completes .ok res0 false))) ∧
  (∀ (p : Port) (s : State), s.blockReady p .unmap = true →
    exec (.unmap p .carriedOut) s = .next (State.settle (s.modPort p fun x =>
      (if (s.operand p 0).getLsbD 0 then { x with windowB := Window.unmapped } else { x with windowA := Window.unmapped }
        : PortState).completes .ok res0 false)))

/-- The start of a window access (R91): on a MAPPED window it waits for its bank under /PWAIT; otherwise a read answers 0xFFFF, a write
is dropped, and WINDOW_FAULT is set. A stream data access (R100 to R102): the prefix answers the latched length; below the end a read,
and below 512 a write to a window in mode RW, waits for its bank at the pointer's offset; every case of R102 sets WINDOW_FAULT and moves
nothing. A read whose strobe rises before /PWAIT is released has the same effects, and its word is discarded (R165; that an operand of
the read says so is the model's form, log 14). -/
def Obligations.AccessBegins : Prop :=
  (∀ (p : Port) (w : WindowSel) (word : BitVec 8) (strobe : Strobe) (s : State), s.busReady p = true →
    (∀ v, (s.port p).window w = .mapped v →
      exec (.windowRead { port := p, strobe := strobe } w word) s = .next (State.settle (s.modPort p fun x =>
        { x with
          access := some
            { kind := .windowRead strobe, window := w, buffer := handleIx v.handle, offset := 2 * word.toNat,
              rearmed := false, phase := .waiting } })) ∧
      ∀ (d : Word) (l : Lanes), l.lo = true ∨ l.hi = true →
        exec (.windowWrite p w word d l) s = .next (State.settle (s.modPort p fun x =>
          { x with
            access := some
              { kind := .windowWrite d l, window := w, buffer := handleIx v.handle, offset := 2 * word.toNat,
                rearmed := false, phase := .waiting } }))) ∧
    ((∀ v, (s.port p).window w ≠ .mapped v) →
      exec (.windowRead { port := p, strobe := strobe } w word) s = .next (State.settle (s.modPort p fun x =>
        { x with
          dataBus := if strobe = .held then 0xFFFF#16 else x.dataBus
          session := { x.session with windowFault := true } })) ∧
      ∀ (d : Word) (l : Lanes), l.lo = true ∨ l.hi = true →
        exec (.windowWrite p w word d l) s = .next (State.settle (s.modSession p fun x => { x with windowFault := true })))) ∧
  (∀ (p : Port) (strobe : Strobe) (s : State), s.busReady p = true →
    let x := s.port p
    let faultRead : State := s.modPort p fun x =>
      { x with
        dataBus := if strobe = .held then 0xFFFF#16 else x.dataBus
        session := { x.session with windowFault := true } }
    let faultWrite : State := s.modSession p fun x => { x with windowFault := true }
    let begun (k : AccessKind) (v : View) : State := s.modPort p fun x =>
      { x with
        access := some
          { kind := k, window := x.stream.select, buffer := handleIx v.handle, offset := x.stream.pointer, rearmed := false,
            phase := .waiting } }
    ((∀ v, x.streamWindow ≠ .mapped v) → exec (.streamDataRead { port := p, strobe := strobe }) s = .next faultRead.settle) ∧
    (x.stream.direction = .write → exec (.streamDataRead { port := p, strobe := strobe }) s = .next faultRead.settle) ∧
    (∀ v, x.streamWindow = .mapped v → x.stream.direction = .read →
      (x.stream.prefixDue = true →
        exec (.streamDataRead { port := p, strobe := strobe }) s = .next (State.settle (s.modPort p fun x =>
          { x with
            dataBus := if strobe = .held then BitVec.ofNat 16 v.length else x.dataBus
            stream := { x.stream with prefixDue := false } }))) ∧
      (x.stream.prefixDue = false → x.stream.pointer < 2 * ((v.length + 1) / 2) →
        exec (.streamDataRead { port := p, strobe := strobe }) s = .next (begun (.streamRead strobe) v).settle) ∧
      (x.stream.prefixDue = false → 2 * ((v.length + 1) / 2) ≤ x.stream.pointer →
        exec (.streamDataRead { port := p, strobe := strobe }) s = .next faultRead.settle)) ∧
    ∀ (d : Word) (l : Lanes),
      (l.lo = false → l.hi = false → exec (.streamDataWrite p d l) s = .next s.settle) ∧
      (l.lo = true ∨ l.hi = true →
        ((∀ v, x.streamWindow ≠ .mapped v) → exec (.streamDataWrite p d l) s = .next faultWrite.settle) ∧
        (∀ v, x.streamWindow = .mapped v →
          (x.stream.direction = .read ∨ v.mode = .ro ∨ 512 ≤ x.stream.pointer →
            exec (.streamDataWrite p d l) s = .next faultWrite.settle) ∧
          (x.stream.direction = .write → v.mode = .rw → x.stream.pointer < 512 →
            exec (.streamDataWrite p d l) s = .next (begun (.streamWrite d l) v).settle))))

/-- R99: a write of the stream settings with both byte enables takes the select, direction, length prefix and the offset with its lowest
bit cleared, at most 512, and sets prefix due when the prefix is ON and the direction READ; any other write changes nothing. -/
def Obligations.StreamSettings : Prop :=
  ∀ (p : Port) (d : Word) (l : Lanes) (s : State), s.busReady p = true →
    let offset := (d.extractLsb' 4 10).toNat
    exec (.streamSettingsWrite p d l) s =
      if l.lo = true ∧ l.hi = true then
        .next (State.settle (s.modPort p fun x =>
          { x with
            stream :=
              { select := if d.getLsbD 0 then .b else .a
                direction := if d.getLsbD 1 then .write else .read
                lengthPrefix := d.getLsbD 2
                pointer := if 512 < offset then 512 else offset - offset % 2
                prefixDue := d.getLsbD 2 && !d.getLsbD 1 } }))
      else .next s.settle

/-- A read at its bank grant (R92, R95, R96, R100): while its window still maps the buffer the word is read in the port's byte order, a
stream's pointer advances by 2 unless a MAP has re-armed it (R104; of an access not yet presented then, log 28), and a parity error hands
DATA_ERROR with the window's handle and the offset; otherwise it answers 0xFFFF, sets WINDOW_FAULT and moves no pointer. The read stays
open with its word until it is carried out. -/
def Obligations.ReadAtGrant : Prop :=
  ∀ (p : Port) (s : State) (r : BankRequest) (a : BusAccess) (stream : Bool) (i : Instr),
    (i = .windowReadGrant p .granted ∧ stream = false ∧ r.what = .windowRead) ∨
      (i = .streamReadGrant p .granted ∧ stream = true ∧ r.what = .streamRead) →
    s.bankGrants p r → (s.port p).access = some a →
    let even := s.bufByte a.buffer a.offset
    let odd := s.bufByte a.buffer (a.offset + 1)
    let word : Word := if (s.port p).config.byteOrder = .little then odd.byte ++ even.byte else even.byte ++ odd.byte
    (∀ v, (s.port p).window a.window = .mapped v → handleIx v.handle = a.buffer → s.sessionState p ≠ .detached →
      exec i s = .next (State.settle ((s.occupied r.bank p).modPort p fun x =>
        { x with
          access := some { a with phase := .granted word }
          stream := if stream = true ∧ a.rearmed = false then { x.stream with pointer := x.stream.pointer + 2 } else x.stream
          notes :=
            if even.error = true ∨ odd.error = true then
              x.notes.hand { kind := .dataError, subject := v.handle, value := BitVec.ofNat 16 a.offset }
            else x.notes }))) ∧
    ((∀ v, (s.port p).window a.window = .mapped v → handleIx v.handle ≠ a.buffer) →
      exec i s = .next (State.settle ((s.occupied r.bank p).modPort p fun x =>
        { x with
          access := some { a with phase := .granted 0xFFFF#16 }
          session := { x.session with windowFault := true } })))

/-- A write at its bank grant (R93, R95, R101, R119): while its window still maps the buffer in mode RW, the byte of each enabled lane is
written with fresh parity and every other byte of the array stays; a stream's pointer advances by 2 unless a MAP has re-armed it (R104; of
an access not yet presented then, log 28). Otherwise no byte changes and WINDOW_FAULT is set. Either way the write is finished here, and
/PWAIT is released (R165), while the bank stays occupied until it has been carried out. -/
def Obligations.WriteAtGrant : Prop :=
  ∀ (p : Port) (s : State) (r : BankRequest) (a : BusAccess) (d : Word) (l : Lanes) (stream : Bool) (i : Instr),
    (i = .windowWriteGrant p .granted ∧ stream = false ∧ r.what = .windowWrite ∧ a.kind = .windowWrite d l) ∨
      (i = .streamWriteGrant p .granted ∧ stream = true ∧ r.what = .streamWrite ∧ a.kind = .streamWrite d l) →
    s.bankGrants p r → (s.port p).access = some a → arrayWf s.array = true → a.offset % 2 = 0 → a.offset ≤ 510 →
    let order := (s.port p).config.byteOrder
    let low : Stored := freshByte (d.extractLsb' 0 8)
    let high : Stored := freshByte (d.extractLsb' 8 8)
    let lowAt := if order = .little then a.offset else a.offset + 1
    let highAt := if order = .little then a.offset + 1 else a.offset
    (∀ v, (s.port p).window a.window = .mapped v → handleIx v.handle = a.buffer → v.mode = .rw →
      ∃ t, exec i s = .next t ∧
        (∀ (b : BufIx) (o : Nat), o < 512 → t.bufByte b o =
          if b = a.buffer ∧ o = lowAt ∧ l.lo = true then low
          else if b = a.buffer ∧ o = highAt ∧ l.hi = true then high
          else s.bufByte b o) ∧
        (t.port p).access = none ∧ t.pwait p = false ∧
        (t.port p).stream =
          (if stream = true ∧ a.rearmed = false then { (s.port p).stream with pointer := (s.port p).stream.pointer + 2 }
          else (s.port p).stream) ∧
        t.arbiter r.bank = { lastPort := p, current := some (.port p) } ∧ (t.port p).path = some r ∧
        t.buffers = s.buffers ∧ (t.port p).session = (s.port p).session ∧ (t.port p).notes = (s.port p).notes) ∧
    ((∀ v, (s.port p).window a.window = .mapped v → handleIx v.handle ≠ a.buffer ∨ v.mode = .ro) →
      exec i s = .next (State.settle ((s.occupied r.bank p).modPort p fun x =>
        { x with access := none, session := { x.session with windowFault := true } })))

/-- R94: a window write with both enables writes both bytes of the word, with one enable that one byte, and with neither it is accepted
at once, whatever the window's status, without a bank request, a changed byte or a flag. The enables have no effect on reads, which
carry none. -/
def Obligations.ByteEnables : Prop :=
  ∀ (p : Port) (w : WindowSel) (word : BitVec 8) (d : Word) (s : State),
    (s.busReady p = true → exec (.windowWrite p w word d { lo := false, hi := false }) s = .next s.settle) ∧
    ∀ (lo hi : Bool) (r : BankRequest) (a : BusAccess) (v : View), lo = true ∨ hi = true → s.bankGrants p r →
      r.what = .windowWrite → (s.port p).access = some a → a.kind = .windowWrite d { lo := lo, hi := hi } →
      arrayWf s.array = true → a.offset % 2 = 0 → a.offset ≤ 510 →
      (s.port p).window a.window = .mapped v → handleIx v.handle = a.buffer → v.mode = .rw →
      let lowAt := if (s.port p).config.byteOrder = .little then a.offset else a.offset + 1
      let highAt := if (s.port p).config.byteOrder = .little then a.offset + 1 else a.offset
      ∃ t, exec (.windowWriteGrant p .granted) s = .next t ∧
        (t.bufByte a.buffer lowAt).byte = (if lo then d.extractLsb' 0 8 else (s.bufByte a.buffer lowAt).byte) ∧
        (t.bufByte a.buffer highAt).byte = (if hi then d.extractLsb' 8 8 else (s.bufByte a.buffer highAt).byte)

/-- A granted access that has been carried out (R126, R165): the bank and the path become free, and the path then presents its next
request, if it has one. A read is finished here: /PWAIT is released, and its word stands on the data lines, or is discarded when its strobe
has risen early. A write was finished at its grant, so nothing else changes, also when the next access is open already. That a grant and
its being carried out are two commands is the model's form (log 2). -/
def Obligations.AccessCarriedOut : Prop :=
  (∀ (p : Port) (s : State) (r : BankRequest) (a : BusAccess) (answer : Word) (strobe : Strobe) (i : Instr),
    (i = .windowReadGrant p .carriedOut ∧ r.what = .windowRead ∧ a.kind = .windowRead strobe) ∨
      (i = .streamReadGrant p .carriedOut ∧ r.what = .streamRead ∧ a.kind = .streamRead strobe) →
    s.resetLow = false → (s.port p).path = some r → (s.arbiter r.bank).current = some (.port p) →
    (s.port p).access = some a → a.phase = .granted answer →
    exec i s = .next (State.settle ((s.modArbiter r.bank fun x => { x with current := none }).modPort p fun x =>
      { x with path := none, access := none, dataBus := if strobe = .held then answer else x.dataBus }))) ∧
  ∀ (p : Port) (s : State) (r : BankRequest) (i : Instr),
    (i = .windowWriteGrant p .carriedOut ∧ r.what = .windowWrite) ∨
      (i = .streamWriteGrant p .carriedOut ∧ r.what = .streamWrite) →
    s.resetLow = false → (s.port p).path = some r → (s.arbiter r.bank).current = some (.port p) →
    exec i s = .next (State.settle ((s.modArbiter r.bank fun x => { x with current := none }).modPort p fun x =>
      { x with path := none }))

/-! ## Bulk operations (Chapter 6) -/

/-- The start step of FILL and of COPY whose checks pass (R106 to R108, R110, R111): the bulk count of each buffer touched rises by one,
the mover's record is set up with the pattern of the byte order or the direction of the offsets, and nothing else changes; the engine
stays BUSY. The zero fill's start step (R109): while the claimed handle's buffer is HELD by the port at its generation, a fill of all
512 bytes with zeros starts; otherwise the CLAIM completes ABORTED with the handle in RES0. -/
def Obligations.BulkStarts : Prop :=
  (∀ (p : Port) (s : State), s.checkHandle (s.operand p 0) = none →
    let fits (o n : Nat) : Prop := o % 2 = 0 ∧ n % 2 = 0 ∧ 2 ≤ n ∧ o + n ≤ 512
    let first := handleIx (s.operand p 0)
    let raised (t : State) (b : BufIx) : State := t.modBuf b fun r => { r with bulkCount := r.bulkCount + 1 }
    let range (b : BufIx) (o : Nat) : BulkRange := { buffer := b, generation := (s.buf b).generation, offset := o }
    (s.grants (.re p) (.request .fill) = true → (s.buf first).heldBy p = true →
      fits (s.operand p 1).toNat (s.operand p 2).toNat →
      let low := (s.operand p 3).extractLsb' 0 8
      let high := (s.operand p 3).extractLsb' 8 8
      let little := (s.port p).config.byteOrder = .little
      exec (.fill p .carriedOut) s = .next (State.settle ((raised (s.served (.re p)) first).modEngine p fun e =>
        { e with
          bulk := some
            { kind := .fill, destination := range first (s.operand p 1).toNat, source := none,
              count := (s.operand p 2).toNat, direction := .ascending, patternEven := if little then low else high,
              patternOdd := if little then high else low, bytesDone := 0, abort := false, phase := .moving,
              readRun := none } }))) ∧
    (s.grants (.re p) (.request .copy) = true → s.checkHandle (s.operand p 2) = none →
      let second := handleIx (s.operand p 2)
      (s.buf first).roleOf p = true → (s.buf second).heldBy p = true →
      fits (s.operand p 1).toNat (s.operand p 4).toNat → fits (s.operand p 3).toNat (s.operand p 4).toNat →
      let base := raised (s.served (.re p)) second
      exec (.copy p .carriedOut) s = .next (State.settle
        ((if first = second then base else raised base first).modEngine p fun e =>
          { e with
            bulk := some
              { kind := .copy, destination := range second (s.operand p 3).toNat,
                source := some (range first (s.operand p 1).toNat), count := (s.operand p 4).toNat,
                direction := if (s.operand p 3).toNat < (s.operand p 1).toNat then .ascending else .descending,
                patternEven := 0, patternOdd := 0, bytesDone := 0, abort := false, phase := .moving,
                readRun := none } })))) ∧
  (∀ (p : Port) (s : State) (h : Word), s.grants (.re p) .zeroFillStart = true → (s.port p).engine.claimed = some h →
    let b := handleIx h
    ((s.buf b).heldBy p = true → (s.buf b).generation = handleGen h →
      exec (.zeroFillStart p) s = .next (State.settle
        (((s.served (.re p)).modBuf b fun r => { r with bulkCount := r.bulkCount + 1 }).modEngine p fun e =>
          { e with
            bulk := some
              { kind := .zeroFill, destination := { buffer := b, generation := (s.buf b).generation, offset := 0 },
                source := none, count := 512, direction := .ascending, patternEven := 0, patternOdd := 0,
                bytesDone := 0, abort := false, phase := .moving, readRun := none } }))) ∧
    ((s.buf b).heldBy p = false ∨ (s.buf b).generation ≠ handleGen h →
      exec (.zeroFillStart p) s = .next (State.settle ((s.served (.re p)).modPort p fun x =>
        x.completes .aborted (res4 h 0 0 0) true))))

/-- A burst's extent (R110): its length is the least of 32, the bytes left, and the bytes left in the current row of each buffer it
touches: it exceeds none of them, and it is 32, or reaches the end of the move, or reaches a row boundary of one of the buffers in the
burst's direction. With even offsets and count it is even, 2 to 32. It lies inside the range; ASCENDING bursts run up from the bytes done,
DESCENDING ones down from the range's end. -/
def Obligations.BurstExtent : Prop :=
  ∀ m : Bulk, m.bytesDone < m.count → m.destination.offset + m.count ≤ 512 →
    (∀ r, m.source = some r → r.offset + m.count ≤ 512) →
    let touched (r : BulkRange) : Prop := r = m.destination ∨ m.source = some r
    1 ≤ m.burstLength ∧ m.burstLength ≤ 32 ∧ m.bytesDone + m.burstLength ≤ m.count ∧
    (m.burstLength = 32 ∨ m.bytesDone + m.burstLength = m.count ∨
      ∃ r, touched r ∧
        ((m.direction = .ascending ∧ (m.burstStart r + m.burstLength) % 256 = 0) ∨
          (m.direction = .descending ∧ m.burstStart r % 256 = 0))) ∧
    (m.bytesDone % 2 = 0 → m.count % 2 = 0 → (∀ r, touched r → r.offset % 2 = 0) →
      m.burstLength % 2 = 0 ∧ 2 ≤ m.burstLength) ∧
    ∀ r, touched r →
      (m.burstStart r) / 256 = (m.burstStart r + m.burstLength - 1) / 256 ∧
      r.offset ≤ m.burstStart r ∧ m.burstStart r + m.burstLength ≤ r.offset + m.count ∧
      (m.direction = .ascending → m.burstStart r = r.offset + m.bytesDone) ∧
      (m.direction = .descending → m.burstStart r + m.burstLength = r.offset + (m.count - m.bytesDone))

/-- A FILL or zero-fill burst at its grant (R111, R113): with the abort mark set nothing is written and the mover stops ABORTED; else
every byte of the run takes the pattern byte of its offset with fresh parity, no other byte of the array changes, and bytes done rises
by the burst's length, the last burst stopping the mover with OK. Carried out, the bank and the path are free (R126). -/
def Obligations.FillBurst : Prop :=
  ∀ (p : Port) (s : State) (r : BankRequest) (m : Bulk), (s.port p).engine.bulk = some m → r.what = .fillBurst →
    (s.bankGrants p r → m.abort = true →
      exec (.fillBurst p .granted) s = .next (State.settle ((s.occupied r.bank p).modEngine p fun e =>
        { e with bulk := some { m with phase := .stopped .aborted, readRun := none } }))) ∧
    (s.bankGrants p r → m.abort = false → arrayWf s.array = true →
      m.burstStart m.destination + m.burstLength ≤ 512 →
      ∃ t, exec (.fillBurst p .granted) s = .next t ∧
        (∀ (b : BufIx) (o : Nat), o < 512 → t.bufByte b o =
          if b = m.destination.buffer ∧ m.burstStart m.destination ≤ o ∧
              o < m.burstStart m.destination + m.burstLength then
            freshByte (if o % 2 = 0 then m.patternEven else m.patternOdd)
          else s.bufByte b o) ∧
        (t.port p).engine.bulk = some { m with
          bytesDone := m.bytesDone + m.burstLength, readRun := none
          phase := if m.count ≤ m.bytesDone + m.burstLength then .stopped .ok else m.phase } ∧
        t.arbiter r.bank = { lastPort := p, current := some (.port p) } ∧ t.buffers = s.buffers ∧
        t.channels = s.channels) ∧
    (s.resetLow = false → (s.port p).path = some r → (s.arbiter r.bank).current = some (.port p) →
      exec (.fillBurst p .carriedOut) s = .next (State.settle
        ((s.modArbiter r.bank fun a => { a with current := none }).modPort p fun x => { x with path := none })))

/-- A COPY burst's two grants (R112 to R114): each reads the abort mark first. The read keeps the source run, or stops the mover with
DATA_ERROR when a byte of it has a parity error. The write writes the bytes read with fresh parity, changes no other byte, and raises
bytes done. Each, carried out, frees the bank and the path. -/
def Obligations.CopyBurst : Prop :=
  ∀ (p : Port) (s : State) (r : BankRequest) (m : Bulk) (src : BulkRange), (s.port p).engine.bulk = some m →
    m.source = some src →
    let stopped (o : BulkOutcome) : State := (s.occupied r.bank p).modEngine p fun e =>
      { e with bulk := some { m with phase := .stopped o, readRun := none } }
    let run := (List.range m.burstLength).map fun i => s.bufByte src.buffer (m.burstStart src + i)
    (s.bankGrants p r → r.what = .copyRead →
      (m.abort = true → exec (.copyBurstRead p .granted) s = .next (stopped .aborted).settle) ∧
      (m.abort = false → (∃ c ∈ run, c.error = true) →
        exec (.copyBurstRead p .granted) s = .next (stopped .dataError).settle) ∧
      (m.abort = false → (∀ c ∈ run, c.error = false) →
        exec (.copyBurstRead p .granted) s = .next (State.settle ((s.occupied r.bank p).modEngine p fun e =>
          { e with bulk := some { m with readRun := some (run.map Stored.byte) } })))) ∧
    (s.bankGrants p r → r.what = .copyWrite →
      (m.abort = true → exec (.copyBurstWrite p .granted) s = .next (stopped .aborted).settle) ∧
      (∀ bytes, m.abort = false → m.readRun = some bytes → bytes.length = m.burstLength →
        arrayWf s.array = true → m.burstStart m.destination + m.burstLength ≤ 512 →
        ∃ t, exec (.copyBurstWrite p .granted) s = .next t ∧
          (∀ (b : BufIx) (o : Nat), o < 512 → t.bufByte b o =
            if b = m.destination.buffer ∧ m.burstStart m.destination ≤ o ∧
                o < m.burstStart m.destination + m.burstLength then
              freshByte (bytes.getD (o - m.burstStart m.destination) 0)
            else s.bufByte b o) ∧
          (t.port p).engine.bulk = some { m with
            bytesDone := m.bytesDone + m.burstLength, readRun := none
            phase := if m.count ≤ m.bytesDone + m.burstLength then .stopped .ok else m.phase } ∧
          t.arbiter r.bank = { lastPort := p, current := some (.port p) } ∧ t.buffers = s.buffers ∧
          t.channels = s.channels)) ∧
    (s.resetLow = false → (s.port p).path = some r → (s.arbiter r.bank).current = some (.port p) →
      (r.what = .copyRead → exec (.copyBurstRead p .carriedOut) s = .next (State.settle
        ((s.modArbiter r.bank fun a => { a with current := none }).modPort p fun x => { x with path := none }))) ∧
      (r.what = .copyWrite → exec (.copyBurstWrite p .carriedOut) s = .next (State.settle
        ((s.modArbiter r.bank fun a => { a with current := none }).modPort p fun x => { x with path := none }))))

/-- The end step (R115, R117, R143): the bulk count of each buffer touched falls by one, and the progress record is gone. Each DRAINING
buffer of which this was the last count enters FREE, where it may go to a claim waiter (R15, R8); when both buffers of a COPY do, the spec
gives no order, and the model draws it from a free value and counts the draw (log 17): the statement allows either order. Offered by the
engine, the request completes with the outcome, RES0 giving bytes done or a zero fill's handle; offered by the Teardown Unit, nothing
completes and the end step is no longer owed. -/
def Obligations.EndStep : Prop :=
  ∀ (p : Port) (s : State) (m : Bulk) (o : BulkOutcome), (s.port p).engine.bulk = some m → m.phase = .stopped o →
    let code : ResultCode := match o with
      | .ok => .ok
      | .aborted => .aborted
      | .dataError => .dataError
    let words : Vector Word 4 := if m.kind = .zeroFill then res4 ((s.port p).engine.claimed.getD 0) 0 0 0
      else res4 (BitVec.ofNat 16 m.bytesDone) 0 0 0
    let last := m.touches.filter fun b => (s.buf b).state = .draining ∧ (s.buf b).bulkCount = 1
    let lowered (t : State) : State :=
      m.touches.foldl (fun t b => t.modBuf b fun r => { r with bulkCount := r.bulkCount - 1 })
        (t.setFreeDraws (if last.length = 2 then t.freeDraws + 1 else t.freeDraws))
    let ended (t : State) (order : List BufIx) : State :=
      order.foldl State.entersFree ((lowered t).modEngine p fun e => { e with bulk := none })
    let inSomeOrder (i : List BufIx → Prop) : Prop := i last ∨ i last.reverse
    (s.grants (.re p) .endStep = true →
      inSomeOrder fun order => exec (.endStep p) s = .next (State.settle
        ((ended (s.served (.re p)) order).modPort p fun x => x.completes code words true))) ∧
    (s.grants (.tu p) .endStep = true →
      inSomeOrder fun order => exec (.endStep p) s = .next (State.settle
        ((ended (s.served (.tu p)) order).modPort p fun x =>
          { x with teardown := { x.teardown with endOwed := false } })))

/-! ## Sessions and teardown (Chapter 8) -/

/-- ATTACH, QUIESCE and RESUME (R132 to R134, R136): the session state changes, each other attached port is handed PEER_STATE, and the
request completes OK, its COMPLETE record being placed in the new state. DETACH (R135): the port becomes RESETTING and its Teardown Unit
begins; nothing completes. SET_LEASE (R72): the three values are replaced together, and the request completes OK. It uses no table
operation. -/
def Obligations.SessionRequests : Prop :=
  (∀ (p : Port) (s : State),
    (∀ (c : ReqCode) (i : Instr) (x : SessionState) (v : Nat),
      (c = .attach ∧ i = .attach p .carriedOut ∧ x = .active ∧ v = 1) ∨
        (c = .quiesce ∧ i = .quiesce p .carriedOut ∧ x = .quiesced ∧ v = 2) ∨
        (c = .resume ∧ i = .resume p .carriedOut ∧ x = .active ∧ v = 1) →
      s.blockReady p c = true →
      exec i s = .next (State.settle
        (((s.modSession p fun y => { y with state := x }).placeAll
          (allPorts.filter fun q => q != p && s.attached q) (mkRecord .peerState p.val v)).modPort p fun y =>
            y.completes .ok res0 false))) ∧
    (s.blockReady p .detach = true →
      exec (.detach p .carriedOut) s = .next (State.settle (s.modPort p fun y =>
        { y with
          session := { y.session with state := .resetting }
          teardown := { y.teardown with phase := .fence, nextBuffer := 0, nextChannel := 0 } })))) ∧
  (∀ (p : Port) (s : State), s.blockReady p .setLease = true →
    exec (.setLease p .carriedOut) s = .next (State.settle (s.modPort p fun x =>
      ({ x with
        session :=
          { x.session with
            holdLease := s.operand p 0, readLease := s.operand p 1, grace := s.operand p 2 } } : PortState).completes
              .ok res0 false)))

/-- /PRSTn falling (R123, R137): the port's bus access ends as a read of 0xFFFF, which a strobe that has risen early discards (R165), or a
dropped write; an ungranted window or stream access leaves its bank, a granted one stays; and an attached port becomes RESETTING with
SESSION_CHANGE set and its teardown begun. /PRSTn rising changes its level alone. That PRST_FALLING with /PRSTn low already changes nothing
is the model's choice (log 26). -/
def Obligations.PortResetInput : Prop :=
  ∀ (p : Port) (s : State),
    exec (.prstRising p) s = .next (State.settle (s.modPort p fun x => { x with prstLow := false })) ∧
    ((s.port p).prstLow = true → exec (.prstFalling p) s = .next s.settle) ∧
    ((s.port p).prstLow = false →
      let withdrawn : Prop := ∃ r, (s.port p).path = some r ∧
        (r.what = .windowRead ∨ r.what = .windowWrite ∨ r.what = .streamRead ∨ r.what = .streamWrite) ∧
        (s.arbiter r.bank).current ≠ some (.port p)
      let ended (x : PortState) (path : Option BankRequest) : PortState :=
        { x with
          path := path, access := none, prstLow := true
          dataBus := if x.access.any fun a => a.kind.answers then 0xFFFF#16 else x.dataBus }
      let reset (x : PortState) : PortState :=
        if s.attached p then
          { x with
            session := { x.session with state := .resetting, sessionChange := true }
            teardown := { x.teardown with phase := .fence, nextBuffer := 0, nextChannel := 0 } }
        else x
      (withdrawn → exec (.prstFalling p) s = .next (State.settle (s.modPort p fun x => reset (ended x none)))) ∧
      (¬withdrawn → exec (.prstFalling p) s = .next (State.settle (s.modPort p fun x => reset (ended x x.path)))))

/-- The fence step (R22, R141), whole: the request, the wait, the marker, the timer and the close are gone, RSP reads BUSY with NONE and
the result words 0 (log 18); a bulk operation is marked and its end step owed; both windows are UNMAPPED and the stream reset; the port
leaves the Claim Wait List and every take-waiter set, other ports staying; every UNICAST channel to the port is CLOSING under it; the channel
of a close it was driving, when CLOSING under it, is taken in hand; the other attached ports are told; the phase becomes ROLES. Nothing
else changes: buffers, charges, the Free List, and status and queue of the other channels stay. -/
def Obligations.FenceStepCutsOff : Prop :=
  ∀ (p : Port) (s : State), s.grants (.tu p) .fence = true → s.WaitsLawful →
    let cutOff (c : Chan) : Chan :=
      { status := match c.setup with
          | some u => if u.kind = .unicast ∧ maskHas u.destinations p = true then .closing u p else c.status
          | none => c.status
        queue := c.queue
        takeWaiters := maskErase c.takeWaiters p }
    let inHand : Option ChanIx :=
      match (s.port p).engine.close with
      | some g => if (cutOff (s.chan g.channel)).closer = some p then some g.channel else none
      | none => none
    let base : State := { s.served (.tu p) with claimWait := s.claimWait.erase p, channels := s.channels.map cutOff }
    let fenced : State := base.modPort p fun x =>
      { x with
        engine :=
          { x.engine with
            state := .busy, request := none, operands := none, result := .none, res := Vector.replicate 4 0, timer := none
            cancelMarker := false, bulk := x.engine.bulk.map fun m => { m with abort := true }, close := none
            claimed := none }
        windowA := .unmapped, windowB := .unmapped
        stream := { select := .a, direction := .read, lengthPrefix := false, pointer := 0, prefixDue := false }
        teardown :=
          { x.teardown with
            phase := .roles, inHand := inHand, inHandTakenOver := true, endOwed := x.engine.bulk.isSome } }
    exec (.fenceStep p) s = .next (State.settle
      (fenced.placeAll (allPorts.filter fun q => q != p && s.attached q) (mkRecord .peerState p.val 3)))

/-- A role step (R80 to R82, R142): the role in the first buffer from the next buffer upward in which the port has one is reclaimed
without a record, and the next buffer is the one after it. A buffer left with no role, nothing pending and bulk count 0 enters FREE, where
it may go to a claim waiter; any other is READING, QUEUED or DRAINING as its record is. A role step that finds no role goes on as a
channel step. A channel step (R144) acts on the channel in hand, or takes the first that concerns the port from the next channel upward.
CLOSING under the port, it disposes of the head entry as a close step does (R61), or with its queue empty is the last step of the close
(R62); a channel in hand no longer CLOSING under the port is let go. A FANOUT channel that lists the port loses it (R65): the port leaves
every pending set, each entry left with none leaves the queue, head to tail, and its buffer goes where the last-use rule sends it; a
channel left with no destination becomes CLOSED. A step that finds no channel left makes the phase FINAL and changes nothing else when an
end step is owed (row 6 of R144); when none is owed it goes on as the final step. -/
def Obligations.RoleAndChannelSteps : Prop :=
  (∀ (p : Port) (s : State), s.grants (.tu p) .role = true →
    let passed (n : Nat) : Prop := ∀ d : BufIx, (s.port p).teardown.nextBuffer ≤ d.val → d.val < n → (s.buf d).roleOf p = false
    (∀ b : BufIx, (s.port p).teardown.nextBuffer ≤ b.val → passed b.val →
      let loses (uses : Bool) (f : BufRec → BufRec) : State :=
        ((((s.served (.tu p)).modBuf b f).modPort p fun x => x.loses b uses).lastUsed b).modTeardown p fun t =>
          { t with nextBuffer := b.val + 1 }
      let bulk := (s.port p).engine.bulk
      ((s.buf b).heldBy p = true →
        exec (.roleStep p) s =
          .next (State.settle (loses (bulk.any fun m => m.uses b) fun r => { r with holder := none }))) ∧
      ((s.buf b).heldBy p = false → (s.buf b).readBy p = true →
        exec (.roleStep p) s =
          .next (State.settle (loses (bulk.any fun m => m.readsFrom b) fun r =>
            { r with readers := r.readers.filter fun e => e.port != p })))) ∧
    (passed 256 →
      exec (.roleStep p) s = exec (.channelStep p) s ∧
      exec (.channelStep p) s = exec (.channelStep p) (s.modTeardown p fun t => { t with phase := .channels }))) ∧
  (∀ (p : Port) (s : State) (c : ChanIx), s.grants (.tu p) .channel = true →
    let letGo (t : Teardown) : Teardown :=
      { t with inHand := none, nextChannel := if t.inHandTakenOver then t.nextChannel else c.val + 1 }
    let found : Prop := (s.port p).teardown.inHand = none ∧ (s.port p).teardown.nextChannel ≤ c.val ∧
      ∀ d : ChanIx, (s.port p).teardown.nextChannel ≤ d.val → d.val < c.val → (s.chan d).concerns p = false
    let inHand : Prop := (s.port p).teardown.inHand = some c
    let base : State :=
      if (s.port p).teardown.inHand = none then
        (s.served (.tu p)).modTeardown p fun t => { t with inHand := some c, inHandTakenOver := false }
      else s.served (.tu p)
    (inHand → (s.chan c).closer ≠ some p →
      exec (.channelStep p) s = .next (State.settle ((s.served (.tu p)).modTeardown p letGo))) ∧
    (∀ u, inHand ∨ found → (s.chan c).status = .closing u p →
      ((s.chan c).queue = [] →
        exec (.channelStep p) s = .next (State.settle
          (((base.setChan c { status := .closed, queue := [], takeWaiters := 0 }).placeAll
            ((maskPorts u.destinations).filter fun q => q != p && s.attached q)
            (mkRecord .channelClosed c.val 0)).modTeardown p letGo))) ∧
      ∀ b rest, (s.chan c).queue = b :: rest →
        ((s.buf b).readers ≠ [] → exec (.channelStep p) s = .next (base.entryLeaves c b).settle) ∧
        (∀ o, (s.buf b).readers = [] → (s.buf b).origin = some o → s.attached o = true →
          (s.port o).charge < (s.port o).quota →
          exec (.channelStep p) s = .next (base.entryReturned c b o).settle) ∧
        ((s.buf b).readers = [] →
          (∀ o, (s.buf b).origin = some o → s.attached o = false ∨ (s.port o).quota ≤ (s.port o).charge) →
          exec (.channelStep p) s = .next (base.entryDiscarded c b).settle)) ∧
    (∀ (u : ChanSetup) (closer : Option Port),
      let status (u : ChanSetup) : ChanStatus := match closer with
        | none => .opened u
        | some q => .closing u q
      let q := (s.chan c).queue
      found → (s.chan c).status = status u → closer ≠ some p → u.kind = .fanout → maskHas u.destinations p = true →
      q.Nodup →
      let left := maskErase u.destinations p
      let gone := q.filter fun b => maskErase (s.buf b).pending p = 0
      let removed : State :=
        q.foldl
          (fun t b => t.modBuf b fun r =>
            { r with
              pending := maskErase r.pending p
              channel := if maskErase r.pending p = 0 then none else r.channel })
          ((s.served (.tu p)).setChan c
            (if left = 0 then { status := .closed, queue := [], takeWaiters := 0 }
            else
              { status := status { u with destinations := left }
                queue := q.filter fun b => maskErase (s.buf b).pending p ≠ 0
                takeWaiters := maskErase (s.chan c).takeWaiters p }))
      exec (.channelStep p) s = .next (State.settle
        ((gone.foldl State.lastUsed removed).modTeardown p fun t => { t with nextChannel := c.val + 1 })))) ∧
  ∀ (p : Port) (s : State), s.grants (.tu p) .channel = true → (s.port p).teardown.inHand = none →
    (∀ c : ChanIx, (s.port p).teardown.nextChannel ≤ c.val → (s.chan c).concerns p = false) →
    ((s.port p).teardown.endOwed = true →
      exec (.channelStep p) s =
        .next (State.settle ((s.served (.tu p)).modTeardown p fun t => { t with phase := .final }))) ∧
    ((s.port p).teardown.endOwed = false → exec (.channelStep p) s = exec (.finalStep p) s)

/-- The final step (R145), in phase FINAL and where a channel step finds nothing left and owes no end step (R144): the queue and its
latch are emptied, the enables, the notice mode and the policy cleared, SESSION_CHANGE set alone, the engine reset, the port DETACHED,
and attached peers told. The port keeps its quota, its byte order, its charge and everything else. -/
def Obligations.FinalStepDetaches : Prop :=
  ∀ (p : Port) (s : State) (op : TableOp),
    (op = .final ∧ (s.port p).teardown.phase = .final) ∨
      (op = .channel ∧ (s.port p).teardown.phase = .channels ∧ (s.port p).teardown.inHand = none ∧
        (∀ c : ChanIx, (s.port p).teardown.nextChannel ≤ c.val → (s.chan c).concerns p = false) ∧
        (s.port p).teardown.endOwed = false) →
    s.grants (.tu p) op = true →
    exec (.finalStep p) s = .next (State.settle
      (((s.served (.tu p)).modPort p fun x =>
        { x with
          notes := { records := [], latch := none, remaining := 0 }
          config :=
            { byteOrder := x.config.byteOrder, queueEnable := false, noticeMode := .off, sessionChangeEnable := false,
              refusedEnable := false, windowFaultEnable := false }
          session :=
            { state := .detached, holdLease := 0, readLease := 0, grace := 0, sessionChange := true, refused := false,
              windowFault := false }
          engine := Engine.reset
          teardown := Teardown.reset }).placeAll
            (allPorts.filter fun q => q != p && s.attached q) (mkRecord .peerState p.val 0)))

/-! ## Supervision (Chapter 10) -/

/-- SET_PARAM (R160, R161): NOT_PERMITTED from any port but the supervising one; RANGE for another code or a value out of its range;
else the parameter takes the value, the µs divider or the interval counter restarts, every attached port is handed PARAM_CHANGED, and
the request completes OK. SET_QUOTA (R12, R162): NOT_PERMITTED from any port but the supervising one; RANGE for a port beyond P3, a
quota beyond 256 or below the named port's charge; else the quota is set, every attached port is handed PARAM_CHANGED with the quota
code, a named port that waits is served when its quota was raised, by claim service (R9) or by take service (R59), and the request
completes OK; the terms claimServed and waitServed of Safety.lean write the service out. -/
def Obligations.SupervisorSettings : Prop :=
  (∀ (p : Port) (s : State), s.blockReady p .setParam = true →
    let code := (s.operand p 0).toNat
    let v := (s.operand p 1).toNat
    let refusedWith (e : ResultCode) : Prop :=
      exec (.setParam p .carriedOut) s = .next (State.settle (s.modPort p fun x => x.completes e res0 false))
    let changed (t : State) : Prop :=
      exec (.setParam p .carriedOut) s = .next (State.settle
        ((t.placeAll (allPorts.filter s.attached)
          { kind := .paramChanged, subject := s.operand p 0, value := s.operand p 1 }).modPort p fun x =>
            x.completes .ok res0 false))
    (¬(s.supen = true ∧ s.sup = p) → refusedWith .notPermitted) ∧
    (s.supen = true ∧ s.sup = p →
      (code = 0 ∨ 4 ≤ code → refusedWith .range) ∧
      (code = 1 → (20 ≤ v ∧ v ≤ 133 → changed { s with timebaseDiv := v, usDivider := 0 }) ∧
        (v < 20 ∨ 133 < v → refusedWith .range)) ∧
      (code = 2 → (4 ≤ v ∧ v ≤ 60 → changed { s with refreshInterval := v, intervalCounter := 0 }) ∧
        (v < 4 ∨ 60 < v → refusedWith .range)) ∧
      (code = 3 → (1 ≤ v ∧ v ≤ 8 → changed { s with urgentDebt := v }) ∧ (v < 1 ∨ 8 < v → refusedWith .range)))) ∧
  (∀ (p : Port) (s : State), s.grants (.re p) (.request .setQuota) = true →
    let v := (s.operand p 1).toNat
    let refusedWith (e : ResultCode) : Prop := exec (.setQuota p .carriedOut) s = .next (s.answered p e).settle
    (¬(s.supen = true ∧ s.sup = p) → refusedWith .notPermitted) ∧
    (s.supen = true ∧ s.sup = p →
      (4 ≤ (s.operand p 0).toNat → refusedWith .range) ∧
      ∀ q : Port, (s.operand p 0).toNat = q.val →
        (256 < v ∨ v < (s.port q).charge → refusedWith .range) ∧
        (v ≤ 256 → (s.port q).charge ≤ v → s.claimWait.Nodup →
          let changed : State :=
            ((s.served (.re p)).modPort q fun x => { x with quota := v }).placeAll (allPorts.filter s.attached)
              (mkRecord .paramChanged (0x10 + q.val) v)
          exec (.setQuota p .carriedOut) s = .next (State.settle
            ((if (s.port q).quota < v then changed.waitServed q else changed).modPort p fun x =>
              x.completes .ok res0 false)))))

/-- R163: CLEAR_STATUS from the supervising port clears the four REFRESH_MISSED flags at one moment and completes OK with RES0 to RES3
at 0; from any other it completes NOT_PERMITTED and changes nothing. It places no PARAM_CHANGED record and changes no debt, row pointer
or counter. An interval expiry before it leaves the flags clear, one after it sets the flag of a bank with debt 8 again. -/
def Obligations.ClearStatus : Prop :=
  (∀ (p : Port) (s : State), s.blockReady p .clearStatus = true →
    (s.supen = true ∧ s.sup = p →
      exec (.clearStatus p .carriedOut) s = .next (State.settle
        (({ s with refresh := s.refresh.map fun r => { r with missed := false } } : State).modPort p fun x =>
          x.completes .ok res0 false))) ∧
    (¬(s.supen = true ∧ s.sup = p) →
      exec (.clearStatus p .carriedOut) s = .next (State.settle (s.modPort p fun x =>
        x.completes .notPermitted res0 false)))) ∧
  (∀ (x : SessionState), admits x .clearStatus = true ↔ x = .active) ∧
  ∀ (s : State) (k : BankIx), 8 ≤ (s.bankRefresh k).debt →
    (s.clearMissed.intervalExpiry.bankRefresh k).missed = true ∧ (s.intervalExpiry.clearMissed.bankRefresh k).missed = false

/-! ## Registers and notifications (Chapters 9 and 11) -/

/-- A read of NOTE0 (R153): the head record leaves a nonempty queue for the latch, with the number of records left, and the read returns
its kind; an empty queue answers EMPTY and keeps its latch; a strobe that rises early discards the word (log 14). Register writes (R23,
R147, R155, R166, R170): a 1 written to a change flag on the high lane clears it; PCFG takes the fields of the enabled lanes; OPD0 to OPD5
change lane by lane and read back what was written, the latched operands staying; the read-only places, the window status words among
them, and the places that hold no register ignore writes. Nothing else changes. What a register read returns, with /RESET and /PRSTn high
(R164, R166, R169 to R172; log 15): each word bit by bit, highest bits first, OPD0 to OPD5 as staged, the places that hold no register 0,
and those from 0x080 to 0x3FE 0xFFFF; reads of the stream data register and of the windows are commands of their own. -/
def Obligations.RegisterAccesses : Prop :=
  (∀ (p : Port) (strobe : Strobe) (s : State), s.busReady p = true →
    (∀ r rest, (s.port p).notes.records = r :: rest →
      exec (.note0Pop { port := p, strobe := strobe }) s = .next (State.settle (s.modPort p fun x =>
        { x with
          notes := { records := rest, latch := some r, remaining := rest.length }
          dataBus := if strobe = .held then BitVec.ofNat 16 (recordKindValue r.kind) else x.dataBus }))) ∧
    ((s.port p).notes.records = [] →
      exec (.note0Pop { port := p, strobe := strobe }) s = .next (State.settle (s.modPort p fun x =>
        { x with dataBus := if strobe = .held then 0 else x.dataBus })))) ∧
  (∀ (p : Port) (d : Word) (l : Lanes) (s : State), s.busReady p = true →
    exec (.pstatWrite p d l) s = .next (State.settle (s.modSession p fun x =>
      { x with
        sessionChange := x.sessionChange && !(l.hi && d.getLsbD 8)
        refused := x.refused && !(l.hi && d.getLsbD 9)
        windowFault := x.windowFault && !(l.hi && d.getLsbD 10) })) ∧
    exec (.pcfgWrite p d l) s = .next (State.settle (s.modPort p fun x =>
      { x with
        config :=
          { byteOrder := if l.lo then (if d.getLsbD 0 then .big else .little) else x.config.byteOrder
            queueEnable := if l.lo then d.getLsbD 1 else x.config.queueEnable
            noticeMode := if l.lo then noticeOfField (d.extractLsb' 2 2).toNat else x.config.noticeMode
            sessionChangeEnable := if l.hi then d.getLsbD 8 else x.config.sessionChangeEnable
            refusedEnable := if l.hi then d.getLsbD 9 else x.config.refusedEnable
            windowFaultEnable := if l.hi then d.getLsbD 10 else x.config.windowFaultEnable } })) ∧
    (∀ (i : Fin 6),
      let old := (s.port p).engine.opd.get i
      let new : Word :=
        (if l.hi then d.extractLsb' 8 8 else old.extractLsb' 8 8) ++ (if l.lo then d.extractLsb' 0 8 else old.extractLsb' 0 8)
      let t : State := State.settle (s.modPort p fun x =>
        { x with engine := { x.engine with opd := x.engine.opd.set i.val new i.isLt } })
      exec (.registerWrite p (BitVec.ofNat 10 (1 + i.val)) d l) s = .next t ∧
        t.registerRead p (BitVec.ofNat 10 (1 + i.val)) = some new) ∧
    ∀ addr : BitVec 10, (7 ≤ addr.toNat ∧ addr.toNat ≤ 0x17) ∨ addr.toNat = 0x1A ∨ addr.toNat = 0x1B ∨
        (0x1E ≤ addr.toNat ∧ addr.toNat < 0x200) →
      exec (.registerWrite p addr d l) s = .next s.settle) ∧
  (∀ (p : Port) (s : State), s.resetLow = false → (s.port p).prstLow = false →
    let x := s.port p
    let reads (addr : BitVec 10) (w : Word) : Prop := s.registerRead p addr = some w
    let bit (c : Bool) : BitVec 1 := BitVec.ofBool c
    reads 0x000 x.engine.reqWord ∧ (∀ i : Fin 6, reads (BitVec.ofNat 10 (1 + i.val)) (x.engine.opd.get i)) ∧
    (let codes : List ResultCode :=
      [.none, .ok, .badRequest, .range, .staleHandle, .notHolder, .badState, .busyBuffer, .noBuffer, .quota, .channelClosed,
        .notSource, .notDestination, .queueFull, .queueEmpty, .timeout, .cancelled, .aborted, .dataError, .notPermitted,
        .session]
    let states : List EngineState := [.idle, .busy, .waiting]
    reads 0x008 (0#3 ++ BitVec.ofNat 5 (codes.idxOf x.engine.result) ++ 0#6 ++ BitVec.ofNat 2 (states.idxOf x.engine.state))) ∧
    reads 0x009 (x.engine.res.get 0) ∧ reads 0x00A (x.engine.res.get 1) ∧ reads 0x00B (x.engine.res.get 2) ∧
    reads 0x00C (x.engine.res.get 3) ∧
    (x.notes.latch = none → reads 0x011 0 ∧ reads 0x012 0) ∧
    (∀ r, x.notes.latch = some r → reads 0x011 r.subject ∧ reads 0x012 r.value) ∧
    reads 0x013 (BitVec.ofNat 16 x.notes.remaining) ∧
    (let states : List SessionState := [.detached, .active, .quiesced, .resetting]
    reads 0x018 (0#5 ++ bit x.session.windowFault ++ bit x.session.refused ++ bit x.session.sessionChange ++ 0#6 ++
      BitVec.ofNat 2 (states.idxOf x.session.state))) ∧
    (let modes : List NoticeMode := [.off, .long, .all]
    reads 0x019 (0#5 ++ bit x.config.windowFaultEnable ++ bit x.config.refusedEnable ++ bit x.config.sessionChangeEnable ++ 0#4 ++
      BitVec.ofNat 2 (modes.idxOf x.config.noticeMode) ++ bit x.config.queueEnable ++ bit (x.config.byteOrder == .big))) ∧
    (∀ w addr, (w = .a ∧ addr = 0x01A#10) ∨ (w = .b ∧ addr = 0x01B#10) →
      (x.window w = .unmapped → reads addr 0) ∧
      (∀ v, x.window w = .mapped v → reads addr (v.handle.extractLsb' 0 8 ++ 0#5 ++ bit (v.mode == .ro) ++ 1#2)) ∧
      (∀ v, x.window w = .stale v → reads addr (v.handle.extractLsb' 0 8 ++ 0#5 ++ bit (v.mode == .ro) ++ 2#2))) ∧
    (x.stream.pointer ≤ 512 →
      reads 0x01C (0#2 ++ BitVec.ofNat 10 x.stream.pointer ++ bit x.stream.prefixDue ++ bit x.stream.lengthPrefix ++
        bit (x.stream.direction == .write) ++ bit (x.stream.select == .b))) ∧
    reads 0x020 (0#5 ++ BitVec.ofNat 2 s.sup.val ++ bit s.supen ++ 0#4 ++ bit (s.bankRefresh 3).missed ++
      bit (s.bankRefresh 2).missed ++ bit (s.bankRefresh 1).missed ++ bit (s.bankRefresh 0).missed) ∧
    reads 0x021 (BitVec.ofNat 16 s.freeList.length) ∧ reads 0x022 (BitVec.ofNat 16 x.charge) ∧
    reads 0x023 (BitVec.ofNat 16 x.quota) ∧
    ∀ addr : BitVec 10,
      (addr.toNat = 0x07 ∨ (0x0D ≤ addr.toNat ∧ addr.toNat ≤ 0x0F) ∨ (0x14 ≤ addr.toNat ∧ addr.toNat ≤ 0x17) ∨
        addr.toNat = 0x1E ∨ addr.toNat = 0x1F ∨ (0x24 ≤ addr.toNat ∧ addr.toNat ≤ 0x3F) → reads addr 0) ∧
      (0x40 ≤ addr.toNat ∧ addr.toNat ≤ 0x1FF → reads addr 0xFFFF#16))

/-- A record handed to a queue (R150, R151): a DETACHED port keeps none; an ARRIVAL of a channel whose ARRIVAL stands in the queue adds
to its count, up to 255; below 15 records it joins at the tail; at 15 OVERFLOW takes the sixteenth place; behind OVERFLOW it is lost. -/
def Obligations.RecordsHanded : Prop :=
  (∀ (s : State) (p : Port) (r : Record),
    (s.sessionState p = .detached → s.place p r = s) ∧
    (s.sessionState p ≠ .detached → s.place p r = s.modPort p fun x => { x with notes := x.notes.hand r })) ∧
  ∀ (q : NoteQueue) (r : Record),
    let merges (x : Record) : Prop := r.kind = .arrival ∧ x.kind = .arrival ∧ x.subject = r.subject
    (∀ front x back, q.records = front ++ x :: back → merges x → (∀ y ∈ front ++ back, ¬merges y) →
      q.hand r = { q with
        records :=
          front ++ { x with value := BitVec.ofNat 16 (min 255 (x.value.toNat + r.value.toNat)) } :: back }) ∧
    ((∀ x ∈ q.records, ¬merges x) →
      ((∃ x ∈ q.records, x.kind = .overflow) → q.hand r = q) ∧
      ((∀ x ∈ q.records, x.kind ≠ .overflow) → q.records.length < 15 → q.hand r = { q with records := q.records ++ [r] }) ∧
      ((∀ x ∈ q.records, x.kind ≠ .overflow) → q.records.length = 15 →
        q.hand r = { q with records := q.records ++ [{ kind := .overflow, subject := 0, value := 0 }] }))

/-! ## Frames and whole-machine rules -/

/-- No command but a granted write, a tick, the device's reset or its power changes a stored byte or its parity (R19, R121, R126, R129). Of
the ticks, none changes a byte of a row that it leaves within its retention time (R126, R130; that a row beyond it loses its bytes at once
is the model's choice, log 8). -/
def Obligations.OtherCommandsKeepBytes : Prop :=
  (∀ (c : Instr) (s t : State), c.mayChangeBytes = false → exec c s = .next t → ∀ b o, t.bufByte b o = s.bufByte b o) ∧
  ∀ (c : Instr) (s t : State), c.ticks = true → arrayWf s.array = true → exec c s = .next t →
    ∀ b o, (s.rows.get (arrayRow b o)).age < Config.retentionTicks → t.bufByte b o = s.bufByte b o

/-- A bus access, and every grant of a bank, leaves the pool state alone (R19): buffers, Free List, claim wait list, channels, charges
and quotas; it also leaves every other port as it is, but for what that port's access path presents by itself. The grant of a row refresh
leaves every port so. -/
def Obligations.BusAndBanksKeepPool : Prop :=
  ∀ (c : Instr) (s t : State), exec c s = .next t →
    (c.busPort.isSome = true ∨
      (∃ p m, c = .windowReadGrant p m ∨ c = .windowWriteGrant p m ∨ c = .streamReadGrant p m ∨ c = .streamWriteGrant p m ∨
        c = .fillBurst p m ∨ c = .copyBurstRead p m ∨ c = .copyBurstWrite p m) ∨
      (∃ k m, c = .rowRefresh k m) →
      t.buffers = s.buffers ∧ t.freeList = s.freeList ∧ t.claimWait = s.claimWait ∧ t.channels = s.channels ∧
      t.lastServed = s.lastServed ∧ t.expiry = s.expiry ∧
      ∀ q, (t.port q).charge = (s.port q).charge ∧ (t.port q).quota = (s.port q).quota) ∧
    (let leaves (q : Port) : Prop := t.port q = if s.resetLow = true then s.port q else (s.port q).present
    (∀ p, (c.busPort = some p ∨
        ∃ m, c = .windowReadGrant p m ∨ c = .windowWriteGrant p m ∨ c = .streamReadGrant p m ∨ c = .streamWriteGrant p m ∨
          c = .fillBurst p m ∨ c = .copyBurstRead p m ∨ c = .copyBurstWrite p m) → ∀ q, q ≠ p → leaves q) ∧
      ((∃ k m, c = .rowRefresh k m) → ∀ q, leaves q))

/-- A buffer's generation changes only when the buffer enters FREE, and then by one modulo 128 (R6): over one command, the device's
reset apart, either it stays, and then the buffer did not become FREE; or it rises by one, and then the buffer was not FREE and entered
it, so that it stands on the Free List, or is held by a port that waited on the Claim Wait List (R8). -/
def Obligations.GenerationStepsByOne : Prop :=
  ∀ (c : Instr) (s t : State), s.PoolLawful → c ≠ .resetFalling → exec c s = .next t →
    ∀ b,
      ((t.buf b).generation = (s.buf b).generation ∧ ((s.buf b).state ≠ .free → (t.buf b).state ≠ .free)) ∨
      ((t.buf b).generation = (s.buf b).generation + 1 ∧ (s.buf b).state ≠ .free ∧
        (b ∈ t.freeList ∨ ∃ q ∈ s.claimWait, (t.buf b).heldBy q = true))

/-! ## Laws that every step keeps -/

/-- R148 and R149 hold of every queue after a step when they held before it. A DETACHED port's queue stays empty (R146). -/
def Obligations.StepKeepsNotes : Prop :=
  (∀ s t : State, s.NotesLawful → step s = .next t → t.NotesLawful) ∧
  (∀ s t : State, s.DetachedQuiet → step s = .next t → t.DetachedQuiet)

/-- Parameters stay in their ranges, counters below their limits, and every debt between 0 and 8 (R127, R159, R160). -/
def Obligations.StepKeepsCounters : Prop := ∀ s t : State, s.CountersLawful → step s = .next t → t.CountersLawful

/-- The list by which the model holds the array keeps its canonical form: keys strictly rising, which is the model's choice (log 7), and
inside the array (R118). -/
def Obligations.StepKeepsArrayForm : Prop :=
  ∀ s t : State, arrayWf s.array = true → step s = .next t → arrayWf t.array = true

/-- The expiry list stays in ascending position with no position twice, and what is on offer stands in it (R75, R77). A bank granted to
a port serves the request which that port's path presents to it (R122, R124, R126). What an engine holds fits its engine state and
request (R21); the premise beside it, that a port waits for one thing and only while its engine is WAITING, rules out states no run
reaches. -/
def Obligations.StepKeepsUnits : Prop :=
  (∀ s t : State, s.ExpiryLawful → step s = .next t → t.ExpiryLawful) ∧
  (∀ s t : State, s.PathsLawful → step s = .next t → t.PathsLawful) ∧
  (∀ s t : State, s.WaitsLawful → s.EnginesLawful → step s = .next t → t.EnginesLawful)

/-- The law of R10 and R12: after every step the charge of each port is the number of its roles, at most its quota. The premise is the
laws of the whole pool, which rule out the states no run reaches. -/
def Obligations.StepKeepsCharges : Prop := ∀ s t : State, s.PoolLawful → step s = .next t → t.ChargesLawful

/-- Every law of the device holds after a step from a state in which every law holds. -/
def Obligations.StepKeepsLawful : Prop := ∀ s t : State, s.Lawful → step s = .next t → t.Lawful
end

