-- ==== Sys2Proof/Laws/Array.lean ====
section
/-! SUPPORT. The memory array: every operation keeps its canonical form, a byte reads back as written, and a write leaves every other
byte alone. -/

namespace Sys2Proof.Machine

/-! ## Keys (R118) -/

theorem cellKey_lt (b : BufIx) (o : Nat) : cellKey b o < 131072 := by
  have hb := b.isLt
  simp only [cellKey, rowOf, bankOf, Fin.ofNat_eq_cast, Fin.val_natCast]
  omega

/-- No two bytes of buffers share a key. -/
theorem cellKey_inj {b b' : BufIx} {o o' : Nat} (ho : o < 512) (ho' : o' < 512) (h : cellKey b o = cellKey b' o') :
    b = b' ∧ o = o' := by
  have hb := b.isLt
  have hb' := b'.isLt
  simp only [cellKey, rowOf, bankOf, Fin.ofNat_eq_cast, Fin.val_natCast] at h
  refine ⟨Fin.ext ?_, ?_⟩ <;> omega

/-! ## The list -/

/-- The canonical form as two plain facts. -/
theorem arrayWf_iff (l : List (Nat × Stored)) :
    arrayWf l = true ↔ l.Pairwise (fun x y => x.1 < y.1) ∧ ∀ e ∈ l, e.1 < 131072 := by
  induction l with
  | nil => simp [arrayWf]
  | cons e rest ih =>
    cases rest with
    | nil => simp [arrayWf]
    | cons e' rest =>
      simp only [arrayWf, Bool.and_eq_true, decide_eq_true_eq, ih]
      constructor
      · rintro ⟨h, hp, hb⟩
        have hb' := hb e' (by simp)
        refine ⟨List.pairwise_cons.2 ⟨?_, hp⟩, ?_⟩
        · intro y hy
          rcases List.mem_cons.1 hy with rfl | hy
          · exact h
          · exact Nat.lt_trans h ((List.pairwise_cons.1 hp).1 y hy)
        · intro y hy
          rcases List.mem_cons.1 hy with rfl | hy
          · omega
          · exact hb y hy
      · rintro ⟨hp, hb⟩
        exact ⟨(List.pairwise_cons.1 hp).1 e' (by simp), (List.pairwise_cons.1 hp).2, fun y hy => hb y (by simp [hy])⟩

/-- The keys of a list with an entry set. -/
theorem mem_arrayInsert {l : List (Nat × Stored)} {a : Nat} {v : Stored} {e : Nat × Stored} (h : e ∈ arrayInsert l a v) :
    e = (a, v) ∨ e ∈ l := by
  induction l with
  | nil => simpa [arrayInsert] using h
  | cons x rest ih =>
    simp only [arrayInsert] at h
    split at h
    · simpa using h
    · split at h
      · rcases List.mem_cons.1 h with h | h
        · exact Or.inl h
        · exact Or.inr (by simp [h])
      · rcases List.mem_cons.1 h with h | h
        · exact Or.inr (by simp [h])
        · rcases ih h with h | h
          · exact Or.inl h
          · exact Or.inr (by simp [h])

theorem arrayInsert_wf {l : List (Nat × Stored)} {a : Nat} (v : Stored) (h : arrayWf l = true) (ha : a < 131072) :
    arrayWf (arrayInsert l a v) = true := by
  rw [arrayWf_iff] at h ⊢
  obtain ⟨hp, hb⟩ := h
  refine ⟨?_, fun e he => ?_⟩
  · clear hb
    induction l with
    | nil => simp [arrayInsert]
    | cons x rest ih =>
      obtain ⟨hx, hr⟩ := List.pairwise_cons.1 hp
      simp only [arrayInsert]
      split
      · rename_i hlt
        refine List.pairwise_cons.2 ⟨fun y hy => ?_, hp⟩
        rcases List.mem_cons.1 hy with rfl | hy
        · exact hlt
        · exact Nat.lt_trans hlt (hx y hy)
      · split
        · rename_i heq
          refine List.pairwise_cons.2 ⟨fun y hy => ?_, hr⟩
          rw [heq]
          exact hx y hy
        · refine List.pairwise_cons.2 ⟨fun y hy => ?_, ih hr⟩
          rcases mem_arrayInsert hy with rfl | hy
          · exact by simp only; omega
          · exact hx y hy
  · rcases mem_arrayInsert he with rfl | he
    · exact ha
    · exact hb e he

theorem arrayFilter_wf {l : List (Nat × Stored)} (f : Nat × Stored → Bool) (h : arrayWf l = true) :
    arrayWf (l.filter f) = true := by
  rw [arrayWf_iff] at h ⊢
  exact ⟨h.1.filter f, fun e he => h.2 e (List.mem_of_mem_filter he)⟩

/-- A read after a write to the same key. -/
theorem arrayLookup_insert_same (l : List (Nat × Stored)) (a : Nat) (v : Stored) :
    arrayLookup (arrayInsert l a v) a = some v := by
  induction l with
  | nil => simp [arrayInsert, arrayLookup]
  | cons x rest ih =>
    simp only [arrayInsert]
    split
    · simp [arrayLookup]
    · split
      · simp [arrayLookup]
      · rename_i h1 h2
        rw [arrayLookup, if_neg (by omega), if_neg h1]
        exact ih

/-- A write leaves every other key alone. -/
theorem arrayLookup_insert_other (l : List (Nat × Stored)) {a k : Nat} (v : Stored) (h : k ≠ a) :
    arrayLookup (arrayInsert l a v) k = arrayLookup l k := by
  induction l with
  | nil =>
    simp only [arrayInsert, arrayLookup]
    rw [if_neg (Ne.symm h)]
    split <;> rfl
  | cons x rest ih =>
    simp only [arrayInsert]
    split
    · rename_i hlt
      rw [arrayLookup, if_neg (Ne.symm h)]
      split
      · rw [arrayLookup, if_neg (by omega), if_pos (by omega)]
      · rfl
    · split
      · rename_i heq
        subst heq
        rw [arrayLookup, arrayLookup, if_neg (Ne.symm h), if_neg (Ne.symm h)]
      · rw [arrayLookup, arrayLookup, ih]

/-- A lookup finds what stands in the list. -/
theorem arrayLookup_mem {l : List (Nat × Stored)} {k : Nat} {v : Stored} (h : arrayLookup l k = some v) : (k, v) ∈ l := by
  induction l with
  | nil => simp [arrayLookup] at h
  | cons x rest ih =>
    rw [arrayLookup] at h
    split at h
    · rename_i hk
      simp only [Option.some.injEq] at h
      subst hk h
      simp
    · split at h
      · simp at h
      · exact List.mem_cons_of_mem _ (ih h)

/-- In a list of canonical form a lookup finds exactly what stands there. -/
theorem arrayLookup_eq_some {l : List (Nat × Stored)} (h : arrayWf l = true) {k : Nat} {v : Stored} :
    arrayLookup l k = some v ↔ (k, v) ∈ l := by
  refine ⟨arrayLookup_mem, ?_⟩
  have hp := ((arrayWf_iff l).1 h).1
  clear h
  induction l with
  | nil => simp
  | cons x rest ih =>
    intro hm
    obtain ⟨hx, hr⟩ := List.pairwise_cons.1 hp
    rw [arrayLookup]
    rcases List.mem_cons.1 hm with rfl | hm
    · simp
    · have := hx _ hm
      simp only at this
      rw [if_neg (by omega), if_neg (by omega)]
      exact ih hr hm

/-- A filter that keeps a key's entry leaves its lookup alone. -/
theorem arrayLookup_filter_kept {l : List (Nat × Stored)} (h : arrayWf l = true) {f : Nat × Stored → Bool} {k : Nat}
    (hk : ∀ v, f (k, v) = true) : arrayLookup (l.filter f) k = arrayLookup l k := by
  apply Option.ext
  intro v
  rw [arrayLookup_eq_some (arrayFilter_wf f h), arrayLookup_eq_some h, List.mem_filter]
  exact ⟨fun hm => hm.1, fun hm => ⟨hm, hk v⟩⟩

/-- A filter that drops a key's entry leaves nothing to look up. -/
theorem arrayLookup_filter_dropped {l : List (Nat × Stored)} {f : Nat × Stored → Bool} {k : Nat}
    (hk : ∀ v, f (k, v) = false) : arrayLookup (l.filter f) k = none := by
  cases h : arrayLookup (l.filter f) k with
  | none => rfl
  | some v => simpa [hk v] using (List.mem_filter.1 (arrayLookup_mem h)).2

/-! ## The operations over the state -/

theorem State.writeByte_wf {s : State} (h : arrayWf s.array = true) (b : BufIx) (o : Nat) (x : Byte) :
    arrayWf (s.writeByte b o x).array = true :=
  arrayInsert_wf _ h (cellKey_lt b o)

theorem State.writeRun_wf {s : State} (h : arrayWf s.array = true) (b : BufIx) (o : Nat) (xs : List Byte) :
    arrayWf (s.writeRun b o xs).array = true := by
  induction xs generalizing s o with
  | nil => exact h
  | cons x xs ih => exact ih (s.writeByte_wf h b o x) (o + 1)

theorem State.loseRows_wf {s : State} (h : arrayWf s.array = true) (lost : RowState → Bool) :
    arrayWf (s.loseRows lost).array = true :=
  arrayFilter_wf _ h

/-- A row that is not lost keeps its bytes. -/
theorem State.bufByte_loseRows_kept {s : State} (h : arrayWf s.array = true) {lost : RowState → Bool} {b : BufIx} {o : Nat}
    (hl : lost (s.rows.get (rowOfKey (cellKey b o))) = false) : (s.loseRows lost).bufByte b o = s.bufByte b o := by
  have hk : arrayLookup (s.loseRows lost).array (cellKey b o) = arrayLookup s.array (cellKey b o) :=
    arrayLookup_filter_kept h fun v => by simp [hl]
  have hr : ((s.loseRows lost).rows.get (rowOfKey (cellKey b o))) = s.rows.get (rowOfKey (cellKey b o)) := by
    simp only [State.loseRows, Vector.get_eq_getElem, Vector.getElem_map]
    rw [Vector.get_eq_getElem] at hl
    simp [hl]
  simp only [State.bufByte, State.cell, hk, hr]

theorem State.loseArray_wf (s : State) : arrayWf s.loseArray.array = true := rfl

theorem State.reset_array_wf : arrayWf State.reset.array = true := rfl

@[simp] theorem State.rows_writeByte (s : State) (b : BufIx) (o : Nat) (x : Byte) : (s.writeByte b o x).rows = s.rows := rfl

@[simp] theorem State.rows_writeRun (s : State) (b : BufIx) (o : Nat) (xs : List Byte) : (s.writeRun b o xs).rows = s.rows := by
  induction xs generalizing s o with
  | nil => rfl
  | cons x xs ih => exact ih (s.writeByte b o x) (o + 1)

/-- A byte reads back as written, with fresh parity (R119). -/
@[simp] theorem State.bufByte_writeByte_same (s : State) (b : BufIx) (o : Nat) (x : Byte) :
    (s.writeByte b o x).bufByte b o = freshByte x := by
  simp only [State.bufByte, State.cell, State.writeByte, arrayLookup_insert_same]

/-- A write of one byte leaves every other byte of every buffer alone. -/
theorem State.bufByte_writeByte_other (s : State) {b b' : BufIx} {o o' : Nat} (x : Byte) (ho : o < 512) (ho' : o' < 512)
    (h : ¬(b' = b ∧ o' = o)) : (s.writeByte b o x).bufByte b' o' = s.bufByte b' o' := by
  have hk : cellKey b' o' ≠ cellKey b o := fun hk => h (cellKey_inj ho' ho hk)
  simp only [State.bufByte, State.cell, State.writeByte, arrayLookup_insert_other _ _ hk]

/-- A run of bytes inside a buffer leaves every byte outside it alone. -/
theorem State.bufByte_writeRun_other (s : State) {b b' : BufIx} {o o' : Nat} (xs : List Byte) (ho : o + xs.length ≤ 512)
    (ho' : o' < 512) (h : ¬(b' = b ∧ o ≤ o' ∧ o' < o + xs.length)) :
    (s.writeRun b o xs).bufByte b' o' = s.bufByte b' o' := by
  induction xs generalizing s o with
  | nil => rfl
  | cons x xs ih =>
    simp only [List.length_cons] at ho h
    rw [State.writeRun, ih (s.writeByte b o x) (by omega) (fun hc => h ⟨hc.1, by omega, by omega⟩),
      s.bufByte_writeByte_other x (by omega) ho' (fun hc => h ⟨hc.1, by omega, by omega⟩)]

/-- A run of bytes inside a buffer reads back as written. -/
theorem State.bufByte_writeRun_same (s : State) (b : BufIx) (o : Nat) (xs : List Byte) (ho : o + xs.length ≤ 512) (i : Nat)
    (hi : i < xs.length) : (s.writeRun b o xs).bufByte b (o + i) = freshByte xs[i] := by
  induction xs generalizing s o i with
  | nil => simp at hi
  | cons x xs ih =>
    simp only [List.length_cons] at ho hi
    cases i with
    | zero =>
      rw [State.writeRun, State.bufByte_writeRun_other _ xs (by omega) (by omega) (fun hc => by omega)]
      exact s.bufByte_writeByte_same b o x
    | succ i =>
      have := ih (s.writeByte b o x) (o + 1) (by omega) i (by omega)
      rw [State.writeRun, show o + (i + 1) = o + 1 + i by omega, this]
      rfl

end Sys2Proof.Machine
end

