-- ==== Sys2Proof/Laws/State.lean ====
section
/-! SUPPORT. One lemma per field per update, and what an accessor finds after an update. -/

namespace Sys2Proof.Machine

/-! ## The updates that are special cases of five -/

@[simp] theorem setPort_eq_modPort (s : State) (p : Port) (x : PortState) : s.setPort p x = s.modPort p fun _ => x := rfl
@[simp] theorem setBuf_eq_modBuf (s : State) (b : BufIx) (r : BufRec) : s.setBuf b r = s.modBuf b fun _ => r := rfl
@[simp] theorem setChan_eq_modChan (s : State) (c : ChanIx) (x : Chan) : s.setChan c x = s.modChan c fun _ => x := rfl
@[simp] theorem modEngine_eq_modPort (s : State) (p : Port) (f : Engine → Engine) :
    s.modEngine p f = s.modPort p fun x => { x with engine := f x.engine } := rfl
@[simp] theorem modSession_eq_modPort (s : State) (p : Port) (f : Session → Session) :
    s.modSession p f = s.modPort p fun x => { x with session := f x.session } := rfl
@[simp] theorem modTeardown_eq_modPort (s : State) (p : Port) (f : Teardown → Teardown) :
    s.modTeardown p f = s.modPort p fun x => { x with teardown := f x.teardown } := rfl
@[simp] theorem setData_eq_modPort (s : State) (p : Port) (w : Word) :
    s.setData p w = s.modPort p fun x => { x with dataBus := w } := rfl

/-! ## The fields an update leaves alone -/

@[simp] theorem modPort_resetLow (s : State) (p : Port) (f : PortState → PortState) : (s.modPort p f).resetLow = s.resetLow := rfl
@[simp] theorem modPort_buffers (s : State) (p : Port) (f : PortState → PortState) : (s.modPort p f).buffers = s.buffers := rfl
@[simp] theorem modPort_freeList (s : State) (p : Port) (f : PortState → PortState) : (s.modPort p f).freeList = s.freeList := rfl
@[simp] theorem modPort_claimWait (s : State) (p : Port) (f : PortState → PortState) : (s.modPort p f).claimWait = s.claimWait := rfl
@[simp] theorem modPort_channels (s : State) (p : Port) (f : PortState → PortState) : (s.modPort p f).channels = s.channels := rfl
@[simp] theorem modPort_lastServed (s : State) (p : Port) (f : PortState → PortState) : (s.modPort p f).lastServed = s.lastServed := rfl
@[simp] theorem modPort_expiry (s : State) (p : Port) (f : PortState → PortState) : (s.modPort p f).expiry = s.expiry := rfl
@[simp] theorem modPort_sweep (s : State) (p : Port) (f : PortState → PortState) : (s.modPort p f).sweep = s.sweep := rfl
@[simp] theorem modPort_lmOffer (s : State) (p : Port) (f : PortState → PortState) : (s.modPort p f).lmOffer = s.lmOffer := rfl
@[simp] theorem modPort_array (s : State) (p : Port) (f : PortState → PortState) : (s.modPort p f).array = s.array := rfl
@[simp] theorem modPort_rows (s : State) (p : Port) (f : PortState → PortState) : (s.modPort p f).rows = s.rows := rfl
@[simp] theorem modPort_arbiters (s : State) (p : Port) (f : PortState → PortState) : (s.modPort p f).arbiters = s.arbiters := rfl
@[simp] theorem modPort_refresh (s : State) (p : Port) (f : PortState → PortState) : (s.modPort p f).refresh = s.refresh := rfl
@[simp] theorem modPort_intervalCounter (s : State) (p : Port) (f : PortState → PortState) : (s.modPort p f).intervalCounter = s.intervalCounter := rfl
@[simp] theorem modPort_usDivider (s : State) (p : Port) (f : PortState → PortState) : (s.modPort p f).usDivider = s.usDivider := rfl
@[simp] theorem modPort_msCounter (s : State) (p : Port) (f : PortState → PortState) : (s.modPort p f).msCounter = s.msCounter := rfl
@[simp] theorem modPort_timebaseDiv (s : State) (p : Port) (f : PortState → PortState) : (s.modPort p f).timebaseDiv = s.timebaseDiv := rfl
@[simp] theorem modPort_refreshInterval (s : State) (p : Port) (f : PortState → PortState) : (s.modPort p f).refreshInterval = s.refreshInterval := rfl
@[simp] theorem modPort_urgentDebt (s : State) (p : Port) (f : PortState → PortState) : (s.modPort p f).urgentDebt = s.urgentDebt := rfl
@[simp] theorem modPort_supen (s : State) (p : Port) (f : PortState → PortState) : (s.modPort p f).supen = s.supen := rfl
@[simp] theorem modPort_sup (s : State) (p : Port) (f : PortState → PortState) : (s.modPort p f).sup = s.sup := rfl
@[simp] theorem modPort_freeDraws (s : State) (p : Port) (f : PortState → PortState) : (s.modPort p f).freeDraws = s.freeDraws := rfl
@[simp] theorem modPort_pending (s : State) (p : Port) (f : PortState → PortState) : (s.modPort p f).pending = s.pending := rfl

@[simp] theorem modBuf_resetLow (s : State) (b : BufIx) (f : BufRec → BufRec) : (s.modBuf b f).resetLow = s.resetLow := rfl
@[simp] theorem modBuf_ports (s : State) (b : BufIx) (f : BufRec → BufRec) : (s.modBuf b f).ports = s.ports := rfl
@[simp] theorem modBuf_freeList (s : State) (b : BufIx) (f : BufRec → BufRec) : (s.modBuf b f).freeList = s.freeList := rfl
@[simp] theorem modBuf_claimWait (s : State) (b : BufIx) (f : BufRec → BufRec) : (s.modBuf b f).claimWait = s.claimWait := rfl
@[simp] theorem modBuf_channels (s : State) (b : BufIx) (f : BufRec → BufRec) : (s.modBuf b f).channels = s.channels := rfl
@[simp] theorem modBuf_lastServed (s : State) (b : BufIx) (f : BufRec → BufRec) : (s.modBuf b f).lastServed = s.lastServed := rfl
@[simp] theorem modBuf_expiry (s : State) (b : BufIx) (f : BufRec → BufRec) : (s.modBuf b f).expiry = s.expiry := rfl
@[simp] theorem modBuf_sweep (s : State) (b : BufIx) (f : BufRec → BufRec) : (s.modBuf b f).sweep = s.sweep := rfl
@[simp] theorem modBuf_lmOffer (s : State) (b : BufIx) (f : BufRec → BufRec) : (s.modBuf b f).lmOffer = s.lmOffer := rfl
@[simp] theorem modBuf_array (s : State) (b : BufIx) (f : BufRec → BufRec) : (s.modBuf b f).array = s.array := rfl
@[simp] theorem modBuf_rows (s : State) (b : BufIx) (f : BufRec → BufRec) : (s.modBuf b f).rows = s.rows := rfl
@[simp] theorem modBuf_arbiters (s : State) (b : BufIx) (f : BufRec → BufRec) : (s.modBuf b f).arbiters = s.arbiters := rfl
@[simp] theorem modBuf_refresh (s : State) (b : BufIx) (f : BufRec → BufRec) : (s.modBuf b f).refresh = s.refresh := rfl
@[simp] theorem modBuf_intervalCounter (s : State) (b : BufIx) (f : BufRec → BufRec) : (s.modBuf b f).intervalCounter = s.intervalCounter := rfl
@[simp] theorem modBuf_usDivider (s : State) (b : BufIx) (f : BufRec → BufRec) : (s.modBuf b f).usDivider = s.usDivider := rfl
@[simp] theorem modBuf_msCounter (s : State) (b : BufIx) (f : BufRec → BufRec) : (s.modBuf b f).msCounter = s.msCounter := rfl
@[simp] theorem modBuf_timebaseDiv (s : State) (b : BufIx) (f : BufRec → BufRec) : (s.modBuf b f).timebaseDiv = s.timebaseDiv := rfl
@[simp] theorem modBuf_refreshInterval (s : State) (b : BufIx) (f : BufRec → BufRec) : (s.modBuf b f).refreshInterval = s.refreshInterval := rfl
@[simp] theorem modBuf_urgentDebt (s : State) (b : BufIx) (f : BufRec → BufRec) : (s.modBuf b f).urgentDebt = s.urgentDebt := rfl
@[simp] theorem modBuf_supen (s : State) (b : BufIx) (f : BufRec → BufRec) : (s.modBuf b f).supen = s.supen := rfl
@[simp] theorem modBuf_sup (s : State) (b : BufIx) (f : BufRec → BufRec) : (s.modBuf b f).sup = s.sup := rfl
@[simp] theorem modBuf_freeDraws (s : State) (b : BufIx) (f : BufRec → BufRec) : (s.modBuf b f).freeDraws = s.freeDraws := rfl
@[simp] theorem modBuf_pending (s : State) (b : BufIx) (f : BufRec → BufRec) : (s.modBuf b f).pending = s.pending := rfl

@[simp] theorem modChan_resetLow (s : State) (c : ChanIx) (f : Chan → Chan) : (s.modChan c f).resetLow = s.resetLow := rfl
@[simp] theorem modChan_ports (s : State) (c : ChanIx) (f : Chan → Chan) : (s.modChan c f).ports = s.ports := rfl
@[simp] theorem modChan_buffers (s : State) (c : ChanIx) (f : Chan → Chan) : (s.modChan c f).buffers = s.buffers := rfl
@[simp] theorem modChan_freeList (s : State) (c : ChanIx) (f : Chan → Chan) : (s.modChan c f).freeList = s.freeList := rfl
@[simp] theorem modChan_claimWait (s : State) (c : ChanIx) (f : Chan → Chan) : (s.modChan c f).claimWait = s.claimWait := rfl
@[simp] theorem modChan_lastServed (s : State) (c : ChanIx) (f : Chan → Chan) : (s.modChan c f).lastServed = s.lastServed := rfl
@[simp] theorem modChan_expiry (s : State) (c : ChanIx) (f : Chan → Chan) : (s.modChan c f).expiry = s.expiry := rfl
@[simp] theorem modChan_sweep (s : State) (c : ChanIx) (f : Chan → Chan) : (s.modChan c f).sweep = s.sweep := rfl
@[simp] theorem modChan_lmOffer (s : State) (c : ChanIx) (f : Chan → Chan) : (s.modChan c f).lmOffer = s.lmOffer := rfl
@[simp] theorem modChan_array (s : State) (c : ChanIx) (f : Chan → Chan) : (s.modChan c f).array = s.array := rfl
@[simp] theorem modChan_rows (s : State) (c : ChanIx) (f : Chan → Chan) : (s.modChan c f).rows = s.rows := rfl
@[simp] theorem modChan_arbiters (s : State) (c : ChanIx) (f : Chan → Chan) : (s.modChan c f).arbiters = s.arbiters := rfl
@[simp] theorem modChan_refresh (s : State) (c : ChanIx) (f : Chan → Chan) : (s.modChan c f).refresh = s.refresh := rfl
@[simp] theorem modChan_intervalCounter (s : State) (c : ChanIx) (f : Chan → Chan) : (s.modChan c f).intervalCounter = s.intervalCounter := rfl
@[simp] theorem modChan_usDivider (s : State) (c : ChanIx) (f : Chan → Chan) : (s.modChan c f).usDivider = s.usDivider := rfl
@[simp] theorem modChan_msCounter (s : State) (c : ChanIx) (f : Chan → Chan) : (s.modChan c f).msCounter = s.msCounter := rfl
@[simp] theorem modChan_timebaseDiv (s : State) (c : ChanIx) (f : Chan → Chan) : (s.modChan c f).timebaseDiv = s.timebaseDiv := rfl
@[simp] theorem modChan_refreshInterval (s : State) (c : ChanIx) (f : Chan → Chan) : (s.modChan c f).refreshInterval = s.refreshInterval := rfl
@[simp] theorem modChan_urgentDebt (s : State) (c : ChanIx) (f : Chan → Chan) : (s.modChan c f).urgentDebt = s.urgentDebt := rfl
@[simp] theorem modChan_supen (s : State) (c : ChanIx) (f : Chan → Chan) : (s.modChan c f).supen = s.supen := rfl
@[simp] theorem modChan_sup (s : State) (c : ChanIx) (f : Chan → Chan) : (s.modChan c f).sup = s.sup := rfl
@[simp] theorem modChan_freeDraws (s : State) (c : ChanIx) (f : Chan → Chan) : (s.modChan c f).freeDraws = s.freeDraws := rfl
@[simp] theorem modChan_pending (s : State) (c : ChanIx) (f : Chan → Chan) : (s.modChan c f).pending = s.pending := rfl

@[simp] theorem modArbiter_resetLow (s : State) (k : BankIx) (f : Arbiter → Arbiter) : (s.modArbiter k f).resetLow = s.resetLow := rfl
@[simp] theorem modArbiter_ports (s : State) (k : BankIx) (f : Arbiter → Arbiter) : (s.modArbiter k f).ports = s.ports := rfl
@[simp] theorem modArbiter_buffers (s : State) (k : BankIx) (f : Arbiter → Arbiter) : (s.modArbiter k f).buffers = s.buffers := rfl
@[simp] theorem modArbiter_freeList (s : State) (k : BankIx) (f : Arbiter → Arbiter) : (s.modArbiter k f).freeList = s.freeList := rfl
@[simp] theorem modArbiter_claimWait (s : State) (k : BankIx) (f : Arbiter → Arbiter) : (s.modArbiter k f).claimWait = s.claimWait := rfl
@[simp] theorem modArbiter_channels (s : State) (k : BankIx) (f : Arbiter → Arbiter) : (s.modArbiter k f).channels = s.channels := rfl
@[simp] theorem modArbiter_lastServed (s : State) (k : BankIx) (f : Arbiter → Arbiter) : (s.modArbiter k f).lastServed = s.lastServed := rfl
@[simp] theorem modArbiter_expiry (s : State) (k : BankIx) (f : Arbiter → Arbiter) : (s.modArbiter k f).expiry = s.expiry := rfl
@[simp] theorem modArbiter_sweep (s : State) (k : BankIx) (f : Arbiter → Arbiter) : (s.modArbiter k f).sweep = s.sweep := rfl
@[simp] theorem modArbiter_lmOffer (s : State) (k : BankIx) (f : Arbiter → Arbiter) : (s.modArbiter k f).lmOffer = s.lmOffer := rfl
@[simp] theorem modArbiter_array (s : State) (k : BankIx) (f : Arbiter → Arbiter) : (s.modArbiter k f).array = s.array := rfl
@[simp] theorem modArbiter_rows (s : State) (k : BankIx) (f : Arbiter → Arbiter) : (s.modArbiter k f).rows = s.rows := rfl
@[simp] theorem modArbiter_refresh (s : State) (k : BankIx) (f : Arbiter → Arbiter) : (s.modArbiter k f).refresh = s.refresh := rfl
@[simp] theorem modArbiter_intervalCounter (s : State) (k : BankIx) (f : Arbiter → Arbiter) : (s.modArbiter k f).intervalCounter = s.intervalCounter := rfl
@[simp] theorem modArbiter_usDivider (s : State) (k : BankIx) (f : Arbiter → Arbiter) : (s.modArbiter k f).usDivider = s.usDivider := rfl
@[simp] theorem modArbiter_msCounter (s : State) (k : BankIx) (f : Arbiter → Arbiter) : (s.modArbiter k f).msCounter = s.msCounter := rfl
@[simp] theorem modArbiter_timebaseDiv (s : State) (k : BankIx) (f : Arbiter → Arbiter) : (s.modArbiter k f).timebaseDiv = s.timebaseDiv := rfl
@[simp] theorem modArbiter_refreshInterval (s : State) (k : BankIx) (f : Arbiter → Arbiter) : (s.modArbiter k f).refreshInterval = s.refreshInterval := rfl
@[simp] theorem modArbiter_urgentDebt (s : State) (k : BankIx) (f : Arbiter → Arbiter) : (s.modArbiter k f).urgentDebt = s.urgentDebt := rfl
@[simp] theorem modArbiter_supen (s : State) (k : BankIx) (f : Arbiter → Arbiter) : (s.modArbiter k f).supen = s.supen := rfl
@[simp] theorem modArbiter_sup (s : State) (k : BankIx) (f : Arbiter → Arbiter) : (s.modArbiter k f).sup = s.sup := rfl
@[simp] theorem modArbiter_freeDraws (s : State) (k : BankIx) (f : Arbiter → Arbiter) : (s.modArbiter k f).freeDraws = s.freeDraws := rfl
@[simp] theorem modArbiter_pending (s : State) (k : BankIx) (f : Arbiter → Arbiter) : (s.modArbiter k f).pending = s.pending := rfl

@[simp] theorem modRefresh_resetLow (s : State) (k : BankIx) (f : RefreshBank → RefreshBank) : (s.modRefresh k f).resetLow = s.resetLow := rfl
@[simp] theorem modRefresh_ports (s : State) (k : BankIx) (f : RefreshBank → RefreshBank) : (s.modRefresh k f).ports = s.ports := rfl
@[simp] theorem modRefresh_buffers (s : State) (k : BankIx) (f : RefreshBank → RefreshBank) : (s.modRefresh k f).buffers = s.buffers := rfl
@[simp] theorem modRefresh_freeList (s : State) (k : BankIx) (f : RefreshBank → RefreshBank) : (s.modRefresh k f).freeList = s.freeList := rfl
@[simp] theorem modRefresh_claimWait (s : State) (k : BankIx) (f : RefreshBank → RefreshBank) : (s.modRefresh k f).claimWait = s.claimWait := rfl
@[simp] theorem modRefresh_channels (s : State) (k : BankIx) (f : RefreshBank → RefreshBank) : (s.modRefresh k f).channels = s.channels := rfl
@[simp] theorem modRefresh_lastServed (s : State) (k : BankIx) (f : RefreshBank → RefreshBank) : (s.modRefresh k f).lastServed = s.lastServed := rfl
@[simp] theorem modRefresh_expiry (s : State) (k : BankIx) (f : RefreshBank → RefreshBank) : (s.modRefresh k f).expiry = s.expiry := rfl
@[simp] theorem modRefresh_sweep (s : State) (k : BankIx) (f : RefreshBank → RefreshBank) : (s.modRefresh k f).sweep = s.sweep := rfl
@[simp] theorem modRefresh_lmOffer (s : State) (k : BankIx) (f : RefreshBank → RefreshBank) : (s.modRefresh k f).lmOffer = s.lmOffer := rfl
@[simp] theorem modRefresh_array (s : State) (k : BankIx) (f : RefreshBank → RefreshBank) : (s.modRefresh k f).array = s.array := rfl
@[simp] theorem modRefresh_rows (s : State) (k : BankIx) (f : RefreshBank → RefreshBank) : (s.modRefresh k f).rows = s.rows := rfl
@[simp] theorem modRefresh_arbiters (s : State) (k : BankIx) (f : RefreshBank → RefreshBank) : (s.modRefresh k f).arbiters = s.arbiters := rfl
@[simp] theorem modRefresh_intervalCounter (s : State) (k : BankIx) (f : RefreshBank → RefreshBank) : (s.modRefresh k f).intervalCounter = s.intervalCounter := rfl
@[simp] theorem modRefresh_usDivider (s : State) (k : BankIx) (f : RefreshBank → RefreshBank) : (s.modRefresh k f).usDivider = s.usDivider := rfl
@[simp] theorem modRefresh_msCounter (s : State) (k : BankIx) (f : RefreshBank → RefreshBank) : (s.modRefresh k f).msCounter = s.msCounter := rfl
@[simp] theorem modRefresh_timebaseDiv (s : State) (k : BankIx) (f : RefreshBank → RefreshBank) : (s.modRefresh k f).timebaseDiv = s.timebaseDiv := rfl
@[simp] theorem modRefresh_refreshInterval (s : State) (k : BankIx) (f : RefreshBank → RefreshBank) : (s.modRefresh k f).refreshInterval = s.refreshInterval := rfl
@[simp] theorem modRefresh_urgentDebt (s : State) (k : BankIx) (f : RefreshBank → RefreshBank) : (s.modRefresh k f).urgentDebt = s.urgentDebt := rfl
@[simp] theorem modRefresh_supen (s : State) (k : BankIx) (f : RefreshBank → RefreshBank) : (s.modRefresh k f).supen = s.supen := rfl
@[simp] theorem modRefresh_sup (s : State) (k : BankIx) (f : RefreshBank → RefreshBank) : (s.modRefresh k f).sup = s.sup := rfl
@[simp] theorem modRefresh_freeDraws (s : State) (k : BankIx) (f : RefreshBank → RefreshBank) : (s.modRefresh k f).freeDraws = s.freeDraws := rfl
@[simp] theorem modRefresh_pending (s : State) (k : BankIx) (f : RefreshBank → RefreshBank) : (s.modRefresh k f).pending = s.pending := rfl

@[simp] theorem setFreeList_resetLow (s : State) (l : List BufIx) : (s.setFreeList l).resetLow = s.resetLow := rfl
@[simp] theorem setFreeList_ports (s : State) (l : List BufIx) : (s.setFreeList l).ports = s.ports := rfl
@[simp] theorem setFreeList_buffers (s : State) (l : List BufIx) : (s.setFreeList l).buffers = s.buffers := rfl
@[simp] theorem setFreeList_claimWait (s : State) (l : List BufIx) : (s.setFreeList l).claimWait = s.claimWait := rfl
@[simp] theorem setFreeList_channels (s : State) (l : List BufIx) : (s.setFreeList l).channels = s.channels := rfl
@[simp] theorem setFreeList_lastServed (s : State) (l : List BufIx) : (s.setFreeList l).lastServed = s.lastServed := rfl
@[simp] theorem setFreeList_expiry (s : State) (l : List BufIx) : (s.setFreeList l).expiry = s.expiry := rfl
@[simp] theorem setFreeList_sweep (s : State) (l : List BufIx) : (s.setFreeList l).sweep = s.sweep := rfl
@[simp] theorem setFreeList_lmOffer (s : State) (l : List BufIx) : (s.setFreeList l).lmOffer = s.lmOffer := rfl
@[simp] theorem setFreeList_array (s : State) (l : List BufIx) : (s.setFreeList l).array = s.array := rfl
@[simp] theorem setFreeList_rows (s : State) (l : List BufIx) : (s.setFreeList l).rows = s.rows := rfl
@[simp] theorem setFreeList_arbiters (s : State) (l : List BufIx) : (s.setFreeList l).arbiters = s.arbiters := rfl
@[simp] theorem setFreeList_refresh (s : State) (l : List BufIx) : (s.setFreeList l).refresh = s.refresh := rfl
@[simp] theorem setFreeList_intervalCounter (s : State) (l : List BufIx) : (s.setFreeList l).intervalCounter = s.intervalCounter := rfl
@[simp] theorem setFreeList_usDivider (s : State) (l : List BufIx) : (s.setFreeList l).usDivider = s.usDivider := rfl
@[simp] theorem setFreeList_msCounter (s : State) (l : List BufIx) : (s.setFreeList l).msCounter = s.msCounter := rfl
@[simp] theorem setFreeList_timebaseDiv (s : State) (l : List BufIx) : (s.setFreeList l).timebaseDiv = s.timebaseDiv := rfl
@[simp] theorem setFreeList_refreshInterval (s : State) (l : List BufIx) : (s.setFreeList l).refreshInterval = s.refreshInterval := rfl
@[simp] theorem setFreeList_urgentDebt (s : State) (l : List BufIx) : (s.setFreeList l).urgentDebt = s.urgentDebt := rfl
@[simp] theorem setFreeList_supen (s : State) (l : List BufIx) : (s.setFreeList l).supen = s.supen := rfl
@[simp] theorem setFreeList_sup (s : State) (l : List BufIx) : (s.setFreeList l).sup = s.sup := rfl
@[simp] theorem setFreeList_freeDraws (s : State) (l : List BufIx) : (s.setFreeList l).freeDraws = s.freeDraws := rfl
@[simp] theorem setFreeList_pending (s : State) (l : List BufIx) : (s.setFreeList l).pending = s.pending := rfl
@[simp] theorem setFreeList_freeList (s : State) (l : List BufIx) : (s.setFreeList l).freeList = l := rfl

@[simp] theorem setClaimWait_resetLow (s : State) (l : List Port) : (s.setClaimWait l).resetLow = s.resetLow := rfl
@[simp] theorem setClaimWait_ports (s : State) (l : List Port) : (s.setClaimWait l).ports = s.ports := rfl
@[simp] theorem setClaimWait_buffers (s : State) (l : List Port) : (s.setClaimWait l).buffers = s.buffers := rfl
@[simp] theorem setClaimWait_freeList (s : State) (l : List Port) : (s.setClaimWait l).freeList = s.freeList := rfl
@[simp] theorem setClaimWait_channels (s : State) (l : List Port) : (s.setClaimWait l).channels = s.channels := rfl
@[simp] theorem setClaimWait_lastServed (s : State) (l : List Port) : (s.setClaimWait l).lastServed = s.lastServed := rfl
@[simp] theorem setClaimWait_expiry (s : State) (l : List Port) : (s.setClaimWait l).expiry = s.expiry := rfl
@[simp] theorem setClaimWait_sweep (s : State) (l : List Port) : (s.setClaimWait l).sweep = s.sweep := rfl
@[simp] theorem setClaimWait_lmOffer (s : State) (l : List Port) : (s.setClaimWait l).lmOffer = s.lmOffer := rfl
@[simp] theorem setClaimWait_array (s : State) (l : List Port) : (s.setClaimWait l).array = s.array := rfl
@[simp] theorem setClaimWait_rows (s : State) (l : List Port) : (s.setClaimWait l).rows = s.rows := rfl
@[simp] theorem setClaimWait_arbiters (s : State) (l : List Port) : (s.setClaimWait l).arbiters = s.arbiters := rfl
@[simp] theorem setClaimWait_refresh (s : State) (l : List Port) : (s.setClaimWait l).refresh = s.refresh := rfl
@[simp] theorem setClaimWait_intervalCounter (s : State) (l : List Port) : (s.setClaimWait l).intervalCounter = s.intervalCounter := rfl
@[simp] theorem setClaimWait_usDivider (s : State) (l : List Port) : (s.setClaimWait l).usDivider = s.usDivider := rfl
@[simp] theorem setClaimWait_msCounter (s : State) (l : List Port) : (s.setClaimWait l).msCounter = s.msCounter := rfl
@[simp] theorem setClaimWait_timebaseDiv (s : State) (l : List Port) : (s.setClaimWait l).timebaseDiv = s.timebaseDiv := rfl
@[simp] theorem setClaimWait_refreshInterval (s : State) (l : List Port) : (s.setClaimWait l).refreshInterval = s.refreshInterval := rfl
@[simp] theorem setClaimWait_urgentDebt (s : State) (l : List Port) : (s.setClaimWait l).urgentDebt = s.urgentDebt := rfl
@[simp] theorem setClaimWait_supen (s : State) (l : List Port) : (s.setClaimWait l).supen = s.supen := rfl
@[simp] theorem setClaimWait_sup (s : State) (l : List Port) : (s.setClaimWait l).sup = s.sup := rfl
@[simp] theorem setClaimWait_freeDraws (s : State) (l : List Port) : (s.setClaimWait l).freeDraws = s.freeDraws := rfl
@[simp] theorem setClaimWait_pending (s : State) (l : List Port) : (s.setClaimWait l).pending = s.pending := rfl
@[simp] theorem setClaimWait_claimWait (s : State) (l : List Port) : (s.setClaimWait l).claimWait = l := rfl

@[simp] theorem served_resetLow (s : State) (r : Requester) : (s.served r).resetLow = s.resetLow := rfl
@[simp] theorem served_ports (s : State) (r : Requester) : (s.served r).ports = s.ports := rfl
@[simp] theorem served_buffers (s : State) (r : Requester) : (s.served r).buffers = s.buffers := rfl
@[simp] theorem served_freeList (s : State) (r : Requester) : (s.served r).freeList = s.freeList := rfl
@[simp] theorem served_claimWait (s : State) (r : Requester) : (s.served r).claimWait = s.claimWait := rfl
@[simp] theorem served_channels (s : State) (r : Requester) : (s.served r).channels = s.channels := rfl
@[simp] theorem served_expiry (s : State) (r : Requester) : (s.served r).expiry = s.expiry := rfl
@[simp] theorem served_sweep (s : State) (r : Requester) : (s.served r).sweep = s.sweep := rfl
@[simp] theorem served_lmOffer (s : State) (r : Requester) : (s.served r).lmOffer = s.lmOffer := rfl
@[simp] theorem served_array (s : State) (r : Requester) : (s.served r).array = s.array := rfl
@[simp] theorem served_rows (s : State) (r : Requester) : (s.served r).rows = s.rows := rfl
@[simp] theorem served_arbiters (s : State) (r : Requester) : (s.served r).arbiters = s.arbiters := rfl
@[simp] theorem served_refresh (s : State) (r : Requester) : (s.served r).refresh = s.refresh := rfl
@[simp] theorem served_intervalCounter (s : State) (r : Requester) : (s.served r).intervalCounter = s.intervalCounter := rfl
@[simp] theorem served_usDivider (s : State) (r : Requester) : (s.served r).usDivider = s.usDivider := rfl
@[simp] theorem served_msCounter (s : State) (r : Requester) : (s.served r).msCounter = s.msCounter := rfl
@[simp] theorem served_timebaseDiv (s : State) (r : Requester) : (s.served r).timebaseDiv = s.timebaseDiv := rfl
@[simp] theorem served_refreshInterval (s : State) (r : Requester) : (s.served r).refreshInterval = s.refreshInterval := rfl
@[simp] theorem served_urgentDebt (s : State) (r : Requester) : (s.served r).urgentDebt = s.urgentDebt := rfl
@[simp] theorem served_supen (s : State) (r : Requester) : (s.served r).supen = s.supen := rfl
@[simp] theorem served_sup (s : State) (r : Requester) : (s.served r).sup = s.sup := rfl
@[simp] theorem served_freeDraws (s : State) (r : Requester) : (s.served r).freeDraws = s.freeDraws := rfl
@[simp] theorem served_pending (s : State) (r : Requester) : (s.served r).pending = s.pending := rfl
@[simp] theorem served_lastServed (s : State) (r : Requester) : (s.served r).lastServed = r := rfl

@[simp] theorem setFreeDraws_resetLow (s : State) (n : Nat) : (s.setFreeDraws n).resetLow = s.resetLow := rfl
@[simp] theorem setFreeDraws_ports (s : State) (n : Nat) : (s.setFreeDraws n).ports = s.ports := rfl
@[simp] theorem setFreeDraws_buffers (s : State) (n : Nat) : (s.setFreeDraws n).buffers = s.buffers := rfl
@[simp] theorem setFreeDraws_freeList (s : State) (n : Nat) : (s.setFreeDraws n).freeList = s.freeList := rfl
@[simp] theorem setFreeDraws_claimWait (s : State) (n : Nat) : (s.setFreeDraws n).claimWait = s.claimWait := rfl
@[simp] theorem setFreeDraws_channels (s : State) (n : Nat) : (s.setFreeDraws n).channels = s.channels := rfl
@[simp] theorem setFreeDraws_lastServed (s : State) (n : Nat) : (s.setFreeDraws n).lastServed = s.lastServed := rfl
@[simp] theorem setFreeDraws_expiry (s : State) (n : Nat) : (s.setFreeDraws n).expiry = s.expiry := rfl
@[simp] theorem setFreeDraws_sweep (s : State) (n : Nat) : (s.setFreeDraws n).sweep = s.sweep := rfl
@[simp] theorem setFreeDraws_lmOffer (s : State) (n : Nat) : (s.setFreeDraws n).lmOffer = s.lmOffer := rfl
@[simp] theorem setFreeDraws_array (s : State) (n : Nat) : (s.setFreeDraws n).array = s.array := rfl
@[simp] theorem setFreeDraws_rows (s : State) (n : Nat) : (s.setFreeDraws n).rows = s.rows := rfl
@[simp] theorem setFreeDraws_arbiters (s : State) (n : Nat) : (s.setFreeDraws n).arbiters = s.arbiters := rfl
@[simp] theorem setFreeDraws_refresh (s : State) (n : Nat) : (s.setFreeDraws n).refresh = s.refresh := rfl
@[simp] theorem setFreeDraws_intervalCounter (s : State) (n : Nat) : (s.setFreeDraws n).intervalCounter = s.intervalCounter := rfl
@[simp] theorem setFreeDraws_usDivider (s : State) (n : Nat) : (s.setFreeDraws n).usDivider = s.usDivider := rfl
@[simp] theorem setFreeDraws_msCounter (s : State) (n : Nat) : (s.setFreeDraws n).msCounter = s.msCounter := rfl
@[simp] theorem setFreeDraws_timebaseDiv (s : State) (n : Nat) : (s.setFreeDraws n).timebaseDiv = s.timebaseDiv := rfl
@[simp] theorem setFreeDraws_refreshInterval (s : State) (n : Nat) : (s.setFreeDraws n).refreshInterval = s.refreshInterval := rfl
@[simp] theorem setFreeDraws_urgentDebt (s : State) (n : Nat) : (s.setFreeDraws n).urgentDebt = s.urgentDebt := rfl
@[simp] theorem setFreeDraws_supen (s : State) (n : Nat) : (s.setFreeDraws n).supen = s.supen := rfl
@[simp] theorem setFreeDraws_sup (s : State) (n : Nat) : (s.setFreeDraws n).sup = s.sup := rfl
@[simp] theorem setFreeDraws_pending (s : State) (n : Nat) : (s.setFreeDraws n).pending = s.pending := rfl
@[simp] theorem setFreeDraws_freeDraws (s : State) (n : Nat) : (s.setFreeDraws n).freeDraws = n := rfl

/-! ## Accessors after an update -/

theorem vector_get_set {α : Type} {n : Nat} (v : Vector α n) (i j : Fin n) (x : α) :
    (v.set i.val x i.isLt).get j = if j = i then x else v.get j := by
  show (v.set i.val x i.isLt)[j.val] = if j = i then x else v[j.val]
  rw [Vector.getElem_set]
  simp only [Fin.ext_iff, eq_comm]

theorem vector_get_map {α β : Type} {n : Nat} (v : Vector α n) (f : α → β) (i : Fin n) : (v.map f).get i = f (v.get i) := by
  show (v.map f)[i.val] = f v[i.val]
  rw [Vector.getElem_map]

theorem vector_get_replicate {α : Type} {n : Nat} (x : α) (i : Fin n) : (Vector.replicate n x).get i = x := by
  show (Vector.replicate n x)[i.val] = x
  rw [Vector.getElem_replicate]

theorem vector_ext_get {α : Type} {n : Nat} {v w : Vector α n} (h : ∀ i, v.get i = w.get i) : v = w := by
  apply Vector.ext
  intro i hi
  simpa [Vector.get] using h ⟨i, hi⟩

theorem port_modPort (s : State) (p q : Port) (f : PortState → PortState) :
    (s.modPort p f).port q = if q = p then f (s.port q) else s.port q := by
  unfold State.modPort State.setPort State.port
  rw [vector_get_set]
  split <;> simp_all

@[simp] theorem port_modPort_same (s : State) (p : Port) (f : PortState → PortState) : (s.modPort p f).port p = f (s.port p) := by
  simp [port_modPort]

theorem port_modPort_other (s : State) {p q : Port} (h : q ≠ p) (f : PortState → PortState) :
    (s.modPort p f).port q = s.port q := by simp [port_modPort, h]

theorem buf_modBuf (s : State) (b d : BufIx) (f : BufRec → BufRec) :
    (s.modBuf b f).buf d = if d = b then f (s.buf d) else s.buf d := by
  unfold State.modBuf State.setBuf State.buf
  rw [vector_get_set]
  split <;> simp_all

@[simp] theorem buf_modBuf_same (s : State) (b : BufIx) (f : BufRec → BufRec) : (s.modBuf b f).buf b = f (s.buf b) := by
  simp [buf_modBuf]

theorem buf_modBuf_other (s : State) {b d : BufIx} (h : d ≠ b) (f : BufRec → BufRec) : (s.modBuf b f).buf d = s.buf d := by
  simp [buf_modBuf, h]

theorem chan_modChan (s : State) (c d : ChanIx) (f : Chan → Chan) :
    (s.modChan c f).chan d = if d = c then f (s.chan d) else s.chan d := by
  unfold State.modChan State.setChan State.chan
  rw [vector_get_set]
  split <;> simp_all

@[simp] theorem chan_modChan_same (s : State) (c : ChanIx) (f : Chan → Chan) : (s.modChan c f).chan c = f (s.chan c) := by
  simp [chan_modChan]

theorem chan_modChan_other (s : State) {c d : ChanIx} (h : d ≠ c) (f : Chan → Chan) :
    (s.modChan c f).chan d = s.chan d := by simp [chan_modChan, h]

theorem arbiter_modArbiter (s : State) (k j : BankIx) (f : Arbiter → Arbiter) :
    (s.modArbiter k f).arbiter j = if j = k then f (s.arbiter j) else s.arbiter j := by
  unfold State.modArbiter State.arbiter
  rw [vector_get_set]
  split <;> simp_all

theorem bankRefresh_modRefresh (s : State) (k j : BankIx) (f : RefreshBank → RefreshBank) :
    (s.modRefresh k f).bankRefresh j = if j = k then f (s.bankRefresh j) else s.bankRefresh j := by
  unfold State.modRefresh State.bankRefresh
  rw [vector_get_set]
  split <;> simp_all

@[simp] theorem port_modBuf (s : State) (b : BufIx) (f : BufRec → BufRec) (p : Port) :
    (s.modBuf b f).port p = s.port p := rfl
@[simp] theorem port_modChan (s : State) (c : ChanIx) (f : Chan → Chan) (p : Port) :
    (s.modChan c f).port p = s.port p := rfl
@[simp] theorem port_modArbiter (s : State) (k : BankIx) (f : Arbiter → Arbiter) (p : Port) :
    (s.modArbiter k f).port p = s.port p := rfl
@[simp] theorem port_modRefresh (s : State) (k : BankIx) (f : RefreshBank → RefreshBank) (p : Port) :
    (s.modRefresh k f).port p = s.port p := rfl
@[simp] theorem buf_modPort (s : State) (p : Port) (f : PortState → PortState) (b : BufIx) :
    (s.modPort p f).buf b = s.buf b := rfl
@[simp] theorem buf_modChan (s : State) (c : ChanIx) (f : Chan → Chan) (b : BufIx) :
    (s.modChan c f).buf b = s.buf b := rfl
@[simp] theorem buf_modArbiter (s : State) (k : BankIx) (f : Arbiter → Arbiter) (b : BufIx) :
    (s.modArbiter k f).buf b = s.buf b := rfl
@[simp] theorem buf_modRefresh (s : State) (k : BankIx) (f : RefreshBank → RefreshBank) (b : BufIx) :
    (s.modRefresh k f).buf b = s.buf b := rfl
@[simp] theorem chan_modPort (s : State) (p : Port) (f : PortState → PortState) (c : ChanIx) :
    (s.modPort p f).chan c = s.chan c := rfl
@[simp] theorem chan_modBuf (s : State) (b : BufIx) (f : BufRec → BufRec) (c : ChanIx) :
    (s.modBuf b f).chan c = s.chan c := rfl
@[simp] theorem chan_modArbiter (s : State) (k : BankIx) (f : Arbiter → Arbiter) (c : ChanIx) :
    (s.modArbiter k f).chan c = s.chan c := rfl
@[simp] theorem chan_modRefresh (s : State) (k : BankIx) (f : RefreshBank → RefreshBank) (c : ChanIx) :
    (s.modRefresh k f).chan c = s.chan c := rfl
@[simp] theorem arbiter_modPort (s : State) (p : Port) (f : PortState → PortState) (j : BankIx) :
    (s.modPort p f).arbiter j = s.arbiter j := rfl
@[simp] theorem arbiter_modBuf (s : State) (b : BufIx) (f : BufRec → BufRec) (j : BankIx) :
    (s.modBuf b f).arbiter j = s.arbiter j := rfl
@[simp] theorem arbiter_modChan (s : State) (c : ChanIx) (f : Chan → Chan) (j : BankIx) :
    (s.modChan c f).arbiter j = s.arbiter j := rfl
@[simp] theorem bankRefresh_modPort (s : State) (p : Port) (f : PortState → PortState) (j : BankIx) :
    (s.modPort p f).bankRefresh j = s.bankRefresh j := rfl
@[simp] theorem bankRefresh_modArbiter (s : State) (k : BankIx) (f : Arbiter → Arbiter) (j : BankIx) :
    (s.modArbiter k f).bankRefresh j = s.bankRefresh j := rfl
@[simp] theorem cell_modPort (s : State) (p : Port) (f : PortState → PortState) (a : Nat) :
    (s.modPort p f).cell a = s.cell a := rfl
@[simp] theorem cell_modBuf (s : State) (b : BufIx) (f : BufRec → BufRec) (a : Nat) :
    (s.modBuf b f).cell a = s.cell a := rfl
@[simp] theorem cell_modChan (s : State) (c : ChanIx) (f : Chan → Chan) (a : Nat) :
    (s.modChan c f).cell a = s.cell a := rfl
@[simp] theorem cell_modArbiter (s : State) (k : BankIx) (f : Arbiter → Arbiter) (a : Nat) :
    (s.modArbiter k f).cell a = s.cell a := rfl
@[simp] theorem cell_modRefresh (s : State) (k : BankIx) (f : RefreshBank → RefreshBank) (a : Nat) :
    (s.modRefresh k f).cell a = s.cell a := rfl
@[simp] theorem port_setFreeList (s : State) (l : List BufIx) (p : Port) :
    (s.setFreeList l).port p = s.port p := rfl
@[simp] theorem port_setClaimWait (s : State) (l : List Port) (p : Port) :
    (s.setClaimWait l).port p = s.port p := rfl
@[simp] theorem port_served (s : State) (r : Requester) (p : Port) :
    (s.served r).port p = s.port p := rfl
@[simp] theorem port_setFreeDraws (s : State) (n : Nat) (p : Port) :
    (s.setFreeDraws n).port p = s.port p := rfl
@[simp] theorem buf_setFreeList (s : State) (l : List BufIx) (b : BufIx) :
    (s.setFreeList l).buf b = s.buf b := rfl
@[simp] theorem buf_setClaimWait (s : State) (l : List Port) (b : BufIx) :
    (s.setClaimWait l).buf b = s.buf b := rfl
@[simp] theorem buf_served (s : State) (r : Requester) (b : BufIx) :
    (s.served r).buf b = s.buf b := rfl
@[simp] theorem buf_setFreeDraws (s : State) (n : Nat) (b : BufIx) :
    (s.setFreeDraws n).buf b = s.buf b := rfl
@[simp] theorem chan_setFreeList (s : State) (l : List BufIx) (c : ChanIx) :
    (s.setFreeList l).chan c = s.chan c := rfl
@[simp] theorem chan_setClaimWait (s : State) (l : List Port) (c : ChanIx) :
    (s.setClaimWait l).chan c = s.chan c := rfl
@[simp] theorem chan_served (s : State) (r : Requester) (c : ChanIx) :
    (s.served r).chan c = s.chan c := rfl
@[simp] theorem chan_setFreeDraws (s : State) (n : Nat) (c : ChanIx) :
    (s.setFreeDraws n).chan c = s.chan c := rfl
@[simp] theorem arbiter_setFreeList (s : State) (l : List BufIx) (k : BankIx) :
    (s.setFreeList l).arbiter k = s.arbiter k := rfl
@[simp] theorem arbiter_setClaimWait (s : State) (l : List Port) (k : BankIx) :
    (s.setClaimWait l).arbiter k = s.arbiter k := rfl
@[simp] theorem arbiter_served (s : State) (r : Requester) (k : BankIx) :
    (s.served r).arbiter k = s.arbiter k := rfl
@[simp] theorem arbiter_setFreeDraws (s : State) (n : Nat) (k : BankIx) :
    (s.setFreeDraws n).arbiter k = s.arbiter k := rfl
@[simp] theorem bankRefresh_setFreeList (s : State) (l : List BufIx) (k : BankIx) :
    (s.setFreeList l).bankRefresh k = s.bankRefresh k := rfl
@[simp] theorem bankRefresh_setClaimWait (s : State) (l : List Port) (k : BankIx) :
    (s.setClaimWait l).bankRefresh k = s.bankRefresh k := rfl
@[simp] theorem bankRefresh_served (s : State) (r : Requester) (k : BankIx) :
    (s.served r).bankRefresh k = s.bankRefresh k := rfl
@[simp] theorem bankRefresh_setFreeDraws (s : State) (n : Nat) (k : BankIx) :
    (s.setFreeDraws n).bankRefresh k = s.bankRefresh k := rfl
@[simp] theorem cell_setFreeList (s : State) (l : List BufIx) (a : Nat) :
    (s.setFreeList l).cell a = s.cell a := rfl
@[simp] theorem cell_setClaimWait (s : State) (l : List Port) (a : Nat) :
    (s.setClaimWait l).cell a = s.cell a := rfl
@[simp] theorem cell_served (s : State) (r : Requester) (a : Nat) :
    (s.served r).cell a = s.cell a := rfl
@[simp] theorem cell_setFreeDraws (s : State) (n : Nat) (a : Nat) :
    (s.setFreeDraws n).cell a = s.cell a := rfl

/-! ## The initial accessors -/

@[simp] theorem reset_port (p : Port) : State.reset.port p = PortState.reset := vector_get_replicate _ _
@[simp] theorem reset_buf (b : BufIx) : State.reset.buf b = BufRec.reset := vector_get_replicate _ _
@[simp] theorem reset_chan (c : ChanIx) : State.reset.chan c = Chan.reset := vector_get_replicate _ _
@[simp] theorem reset_arbiter (k : BankIx) : State.reset.arbiter k = { lastPort := 3, current := none } := vector_get_replicate _ _
@[simp] theorem reset_bankRefresh (k : BankIx) : State.reset.bankRefresh k = { rowPointer := 0, debt := 0, missed := false } :=
  vector_get_replicate _ _

end Sys2Proof.Machine
end

