-- ==== Sys2Proof/Laws/Notes.lean ====
section
/-! SUPPORT. Notification Queues: a record handed over keeps the law of R148, and placing records touches the queues alone. -/

namespace Sys2Proof.Machine

/-! ## Placing touches the queues alone -/

/-- A record placed changes at most the records of the port's own queue. -/
theorem place_frame (s : State) (p : Port) (r : Record) :
    s.place p r = s ∨ s.place p r = s.modPort p fun x => { x with notes := x.notes.hand r } := by
  unfold State.place
  split
  · exact Or.inl rfl
  · exact Or.inr rfl

/-- A property that a record placed keeps is kept by any number of them. -/
theorem placeAll_induct {P : State → Prop} {r : Record} (h : ∀ s p, P s → P (s.place p r)) (ps : List Port) (s : State)
    (hs : P s) : P (s.placeAll ps r) := by
  induction ps generalizing s with
  | nil => exact hs
  | cons p ps ih => exact ih _ (h s p hs)

@[simp] theorem place_buffers (s : State) (p : Port) (r : Record) : (s.place p r).buffers = s.buffers := by
  rcases place_frame s p r with h | h <;> (rw [h]; try rfl)
@[simp] theorem placeAll_buffers (s : State) (ps : List Port) (r : Record) : (s.placeAll ps r).buffers = s.buffers :=
  placeAll_induct (P := fun t => t.buffers = s.buffers) (fun t p h => by rw [place_buffers, h]) ps s rfl
@[simp] theorem place_freeList (s : State) (p : Port) (r : Record) : (s.place p r).freeList = s.freeList := by
  rcases place_frame s p r with h | h <;> (rw [h]; try rfl)
@[simp] theorem placeAll_freeList (s : State) (ps : List Port) (r : Record) : (s.placeAll ps r).freeList = s.freeList :=
  placeAll_induct (P := fun t => t.freeList = s.freeList) (fun t p h => by rw [place_freeList, h]) ps s rfl
@[simp] theorem place_claimWait (s : State) (p : Port) (r : Record) : (s.place p r).claimWait = s.claimWait := by
  rcases place_frame s p r with h | h <;> (rw [h]; try rfl)
@[simp] theorem placeAll_claimWait (s : State) (ps : List Port) (r : Record) : (s.placeAll ps r).claimWait = s.claimWait :=
  placeAll_induct (P := fun t => t.claimWait = s.claimWait) (fun t p h => by rw [place_claimWait, h]) ps s rfl
@[simp] theorem place_channels (s : State) (p : Port) (r : Record) : (s.place p r).channels = s.channels := by
  rcases place_frame s p r with h | h <;> (rw [h]; try rfl)
@[simp] theorem placeAll_channels (s : State) (ps : List Port) (r : Record) : (s.placeAll ps r).channels = s.channels :=
  placeAll_induct (P := fun t => t.channels = s.channels) (fun t p h => by rw [place_channels, h]) ps s rfl
@[simp] theorem place_lastServed (s : State) (p : Port) (r : Record) : (s.place p r).lastServed = s.lastServed := by
  rcases place_frame s p r with h | h <;> (rw [h]; try rfl)
@[simp] theorem placeAll_lastServed (s : State) (ps : List Port) (r : Record) : (s.placeAll ps r).lastServed = s.lastServed :=
  placeAll_induct (P := fun t => t.lastServed = s.lastServed) (fun t p h => by rw [place_lastServed, h]) ps s rfl
@[simp] theorem place_expiry (s : State) (p : Port) (r : Record) : (s.place p r).expiry = s.expiry := by
  rcases place_frame s p r with h | h <;> (rw [h]; try rfl)
@[simp] theorem placeAll_expiry (s : State) (ps : List Port) (r : Record) : (s.placeAll ps r).expiry = s.expiry :=
  placeAll_induct (P := fun t => t.expiry = s.expiry) (fun t p h => by rw [place_expiry, h]) ps s rfl
@[simp] theorem place_sweep (s : State) (p : Port) (r : Record) : (s.place p r).sweep = s.sweep := by
  rcases place_frame s p r with h | h <;> (rw [h]; try rfl)
@[simp] theorem placeAll_sweep (s : State) (ps : List Port) (r : Record) : (s.placeAll ps r).sweep = s.sweep :=
  placeAll_induct (P := fun t => t.sweep = s.sweep) (fun t p h => by rw [place_sweep, h]) ps s rfl
@[simp] theorem place_lmOffer (s : State) (p : Port) (r : Record) : (s.place p r).lmOffer = s.lmOffer := by
  rcases place_frame s p r with h | h <;> (rw [h]; try rfl)
@[simp] theorem placeAll_lmOffer (s : State) (ps : List Port) (r : Record) : (s.placeAll ps r).lmOffer = s.lmOffer :=
  placeAll_induct (P := fun t => t.lmOffer = s.lmOffer) (fun t p h => by rw [place_lmOffer, h]) ps s rfl
@[simp] theorem place_array (s : State) (p : Port) (r : Record) : (s.place p r).array = s.array := by
  rcases place_frame s p r with h | h <;> (rw [h]; try rfl)
@[simp] theorem placeAll_array (s : State) (ps : List Port) (r : Record) : (s.placeAll ps r).array = s.array :=
  placeAll_induct (P := fun t => t.array = s.array) (fun t p h => by rw [place_array, h]) ps s rfl
@[simp] theorem place_rows (s : State) (p : Port) (r : Record) : (s.place p r).rows = s.rows := by
  rcases place_frame s p r with h | h <;> (rw [h]; try rfl)
@[simp] theorem placeAll_rows (s : State) (ps : List Port) (r : Record) : (s.placeAll ps r).rows = s.rows :=
  placeAll_induct (P := fun t => t.rows = s.rows) (fun t p h => by rw [place_rows, h]) ps s rfl
@[simp] theorem place_arbiters (s : State) (p : Port) (r : Record) : (s.place p r).arbiters = s.arbiters := by
  rcases place_frame s p r with h | h <;> (rw [h]; try rfl)
@[simp] theorem placeAll_arbiters (s : State) (ps : List Port) (r : Record) : (s.placeAll ps r).arbiters = s.arbiters :=
  placeAll_induct (P := fun t => t.arbiters = s.arbiters) (fun t p h => by rw [place_arbiters, h]) ps s rfl
@[simp] theorem place_refresh (s : State) (p : Port) (r : Record) : (s.place p r).refresh = s.refresh := by
  rcases place_frame s p r with h | h <;> (rw [h]; try rfl)
@[simp] theorem placeAll_refresh (s : State) (ps : List Port) (r : Record) : (s.placeAll ps r).refresh = s.refresh :=
  placeAll_induct (P := fun t => t.refresh = s.refresh) (fun t p h => by rw [place_refresh, h]) ps s rfl
@[simp] theorem place_intervalCounter (s : State) (p : Port) (r : Record) : (s.place p r).intervalCounter = s.intervalCounter := by
  rcases place_frame s p r with h | h <;> (rw [h]; try rfl)
@[simp] theorem placeAll_intervalCounter (s : State) (ps : List Port) (r : Record) : (s.placeAll ps r).intervalCounter = s.intervalCounter :=
  placeAll_induct (P := fun t => t.intervalCounter = s.intervalCounter) (fun t p h => by rw [place_intervalCounter, h]) ps s rfl
@[simp] theorem place_usDivider (s : State) (p : Port) (r : Record) : (s.place p r).usDivider = s.usDivider := by
  rcases place_frame s p r with h | h <;> (rw [h]; try rfl)
@[simp] theorem placeAll_usDivider (s : State) (ps : List Port) (r : Record) : (s.placeAll ps r).usDivider = s.usDivider :=
  placeAll_induct (P := fun t => t.usDivider = s.usDivider) (fun t p h => by rw [place_usDivider, h]) ps s rfl
@[simp] theorem place_msCounter (s : State) (p : Port) (r : Record) : (s.place p r).msCounter = s.msCounter := by
  rcases place_frame s p r with h | h <;> (rw [h]; try rfl)
@[simp] theorem placeAll_msCounter (s : State) (ps : List Port) (r : Record) : (s.placeAll ps r).msCounter = s.msCounter :=
  placeAll_induct (P := fun t => t.msCounter = s.msCounter) (fun t p h => by rw [place_msCounter, h]) ps s rfl
@[simp] theorem place_timebaseDiv (s : State) (p : Port) (r : Record) : (s.place p r).timebaseDiv = s.timebaseDiv := by
  rcases place_frame s p r with h | h <;> (rw [h]; try rfl)
@[simp] theorem placeAll_timebaseDiv (s : State) (ps : List Port) (r : Record) : (s.placeAll ps r).timebaseDiv = s.timebaseDiv :=
  placeAll_induct (P := fun t => t.timebaseDiv = s.timebaseDiv) (fun t p h => by rw [place_timebaseDiv, h]) ps s rfl
@[simp] theorem place_refreshInterval (s : State) (p : Port) (r : Record) : (s.place p r).refreshInterval = s.refreshInterval := by
  rcases place_frame s p r with h | h <;> (rw [h]; try rfl)
@[simp] theorem placeAll_refreshInterval (s : State) (ps : List Port) (r : Record) : (s.placeAll ps r).refreshInterval = s.refreshInterval :=
  placeAll_induct (P := fun t => t.refreshInterval = s.refreshInterval) (fun t p h => by rw [place_refreshInterval, h]) ps s rfl
@[simp] theorem place_urgentDebt (s : State) (p : Port) (r : Record) : (s.place p r).urgentDebt = s.urgentDebt := by
  rcases place_frame s p r with h | h <;> (rw [h]; try rfl)
@[simp] theorem placeAll_urgentDebt (s : State) (ps : List Port) (r : Record) : (s.placeAll ps r).urgentDebt = s.urgentDebt :=
  placeAll_induct (P := fun t => t.urgentDebt = s.urgentDebt) (fun t p h => by rw [place_urgentDebt, h]) ps s rfl
@[simp] theorem place_supen (s : State) (p : Port) (r : Record) : (s.place p r).supen = s.supen := by
  rcases place_frame s p r with h | h <;> (rw [h]; try rfl)
@[simp] theorem placeAll_supen (s : State) (ps : List Port) (r : Record) : (s.placeAll ps r).supen = s.supen :=
  placeAll_induct (P := fun t => t.supen = s.supen) (fun t p h => by rw [place_supen, h]) ps s rfl
@[simp] theorem place_sup (s : State) (p : Port) (r : Record) : (s.place p r).sup = s.sup := by
  rcases place_frame s p r with h | h <;> (rw [h]; try rfl)
@[simp] theorem placeAll_sup (s : State) (ps : List Port) (r : Record) : (s.placeAll ps r).sup = s.sup :=
  placeAll_induct (P := fun t => t.sup = s.sup) (fun t p h => by rw [place_sup, h]) ps s rfl
@[simp] theorem place_freeDraws (s : State) (p : Port) (r : Record) : (s.place p r).freeDraws = s.freeDraws := by
  rcases place_frame s p r with h | h <;> (rw [h]; try rfl)
@[simp] theorem placeAll_freeDraws (s : State) (ps : List Port) (r : Record) : (s.placeAll ps r).freeDraws = s.freeDraws :=
  placeAll_induct (P := fun t => t.freeDraws = s.freeDraws) (fun t p h => by rw [place_freeDraws, h]) ps s rfl
@[simp] theorem place_pending (s : State) (p : Port) (r : Record) : (s.place p r).pending = s.pending := by
  rcases place_frame s p r with h | h <;> (rw [h]; try rfl)
@[simp] theorem placeAll_pending (s : State) (ps : List Port) (r : Record) : (s.placeAll ps r).pending = s.pending :=
  placeAll_induct (P := fun t => t.pending = s.pending) (fun t p h => by rw [place_pending, h]) ps s rfl
@[simp] theorem place_resetLow (s : State) (p : Port) (r : Record) : (s.place p r).resetLow = s.resetLow := by
  rcases place_frame s p r with h | h <;> (rw [h]; try rfl)
@[simp] theorem placeAll_resetLow (s : State) (ps : List Port) (r : Record) : (s.placeAll ps r).resetLow = s.resetLow :=
  placeAll_induct (P := fun t => t.resetLow = s.resetLow) (fun t p h => by rw [place_resetLow, h]) ps s rfl

/-- A record placed leaves everything of a port but its queue alone. -/
theorem place_port_frame (s : State) (p q : Port) (r : Record) :
    ∃ n, (s.place p r).port q = { s.port q with notes := n } := by
  rcases place_frame s p r with h | h
  · exact ⟨(s.port q).notes, by rw [h]⟩
  · rw [h]
    by_cases e : q = p
    · subst e
      exact ⟨_, port_modPort_same s q _⟩
    · exact ⟨(s.port q).notes, port_modPort_other s e _⟩

/-! ## The law of R148 -/

theorem NoteQueue.reset_lawful : NoteQueue.reset.Lawful := by
  constructor <;> simp [NoteQueue.reset]

/-- A merge keeps the kind and the subject. -/
@[simp] theorem merge_kind (r x : Record) : (r.merge x).kind = x.kind := rfl
@[simp] theorem merge_subject (r x : Record) : (r.merge x).subject = x.subject := rfl

theorem sameArrival_iff (r x : Record) :
    r.sameArrival x = true ↔ r.kind = .arrival ∧ x.kind = .arrival ∧ x.subject = r.subject := by
  simp [Record.sameArrival, and_assoc]

/-- A merged ARRIVAL counts 1 to 255. -/
theorem merge_countOk {r x : Record} (h : x.countOk) : (r.merge x).countOk := by
  intro hk
  obtain ⟨h1, h2⟩ := h hk
  have hv : (r.merge x).value.toNat = min 255 (x.value.toNat + r.value.toNat) := by
    simp only [Record.merge, BitVec.toNat_ofNat]
    omega
  rw [hv]
  omega

/-- A record that joins a lawful queue in which it finds no ARRIVAL to merge with and no OVERFLOW. -/
theorem append_lawful {q : NoteQueue} (h : q.Lawful) (r : Record) (hc : r.countOk)
    (hm : ∀ x ∈ q.records, r.sameArrival x = false) (ho : ∀ x ∈ q.records, x.kind ≠ .overflow)
    (hl : q.records.length < 15 ∨ q.records.length = 15 ∧ r.kind = .overflow) :
    ({ q with records := q.records ++ [r] } : NoteQueue).Lawful := by
  constructor
  · simp only [List.length_append, List.length_singleton]
    omega
  · intro x hx
    simp only [List.dropLast_concat] at hx
    exact ho x hx
  · intro hlen x hx
    simp only [List.length_append, List.length_singleton] at hlen
    simp only [List.getLast?_append, List.getLast?_singleton, Option.some_or, Option.mem_def, Option.some.injEq] at hx
    rw [← hx]
    rcases hl with hl | hl
    · omega
    · exact hl.2
  · rw [List.pairwise_append]
    refine ⟨h.arrivals, List.pairwise_singleton _ _, fun x hx y hy => ?_⟩
    rw [List.mem_singleton] at hy
    subst hy
    rintro ⟨hkx, hky, hs⟩
    have := hm x hx
    rw [(sameArrival_iff y x).2 ⟨hky, hkx, hs⟩] at this
    cases this
  · intro x hx
    rcases List.mem_append.1 hx with hx | hx
    · exact h.counts x hx
    · rw [List.mem_singleton.1 hx]
      exact hc
  · exact h.remaining

/-- A record handed to a lawful queue leaves it lawful (R150, R151). -/
theorem hand_lawful {q : NoteQueue} (h : q.Lawful) (r : Record) (hc : r.countOk) : (q.hand r).Lawful := by
  have hkind : ∀ x : Record, (if r.sameArrival x then r.merge x else x).kind = x.kind := by
    intro x
    split <;> rfl
  have hsubject : ∀ x : Record, (if r.sameArrival x then r.merge x else x).subject = x.subject := by
    intro x
    split <;> rfl
  unfold NoteQueue.hand
  split
  · constructor
    · simpa using h.size
    · intro x hx
      rw [← List.map_dropLast] at hx
      obtain ⟨y, hy, rfl⟩ := List.mem_map.1 hx
      rw [hkind]
      exact h.marker y hy
    · intro hlen x hx
      simp only [List.length_map] at hlen
      simp only [List.getLast?_map, Option.mem_def, Option.map_eq_some_iff] at hx
      obtain ⟨y, hy, rfl⟩ := hx
      rw [hkind]
      exact h.full hlen y hy
    · refine List.Pairwise.map _ (fun x y hxy => ?_) h.arrivals
      unfold Record.apart
      rw [hkind, hkind, hsubject, hsubject]
      exact hxy
    · intro x hx
      obtain ⟨y, hy, rfl⟩ := List.mem_map.1 hx
      split
      · exact merge_countOk (h.counts y hy)
      · exact h.counts y hy
    · exact h.remaining
  · rename_i hm
    have hm' : ∀ x ∈ q.records, r.sameArrival x = false := by simpa using hm
    split
    · exact h
    · rename_i ho
      have ho' : ∀ x ∈ q.records, x.kind ≠ .overflow := by simpa using ho
      split
      · rename_i hl
        exact append_lawful h r hc hm' ho' (Or.inl hl)
      · split
        · rename_i hl
          refine append_lawful h _ (fun hk => ?_) (fun x _ => ?_) ho' (Or.inr ⟨hl, rfl⟩)
          · cases hk
          · rfl
        · exact h

end Sys2Proof.Machine
end

