-- ==== Sys2Proof/Laws/Ops.lean ====
section
/-! SUPPORT. What the shared operations do: grants, completions, records, and the end of an operation. -/

namespace Sys2Proof.Machine

/-! ## Two updates of one port, of one record -/

@[simp] theorem modPort_modPort (s : State) (p : Port) (f g : PortState → PortState) :
    (s.modPort p f).modPort p g = s.modPort p fun x => g (f x) := by
  unfold State.modPort State.setPort State.port
  simp only [State.mk.injEq, and_self, true_and, and_true]
  apply vector_ext_get
  intro i
  simp only [vector_get_set]
  split <;> simp_all

theorem modPort_comm (s : State) {p q : Port} (h : p ≠ q) (f g : PortState → PortState) :
    (s.modPort p f).modPort q g = (s.modPort q g).modPort p f := by
  unfold State.modPort State.setPort State.port
  simp only [State.mk.injEq, and_self, true_and, and_true]
  apply vector_ext_get
  intro i
  simp only [vector_get_set]
  split <;> split <;> simp_all

/-- Two updates of a port that agree on what stands there are one. -/
theorem modPort_congr (s : State) (p : Port) {f g : PortState → PortState} (h : f (s.port p) = g (s.port p)) :
    s.modPort p f = s.modPort p g := by
  unfold State.modPort
  rw [h]

/-- An update that leaves what stands there is none. -/
theorem modPort_id (s : State) (p : Port) {f : PortState → PortState} (h : f (s.port p) = s.port p) : s.modPort p f = s := by
  unfold State.modPort State.setPort
  rw [h]
  cases s
  simp only [State.mk.injEq, and_self, true_and, and_true]
  apply vector_ext_get
  intro i
  rw [vector_get_set]
  split <;> simp_all [State.port]

@[simp] theorem modBuf_modBuf (s : State) (b : BufIx) (f g : BufRec → BufRec) :
    (s.modBuf b f).modBuf b g = s.modBuf b fun x => g (f x) := by
  unfold State.modBuf State.setBuf State.buf
  simp only [State.mk.injEq, and_self, true_and, and_true]
  apply vector_ext_get
  intro i
  simp only [vector_get_set]
  split <;> simp_all

theorem modBuf_congr (s : State) (b : BufIx) {f g : BufRec → BufRec} (h : f (s.buf b) = g (s.buf b)) :
    s.modBuf b f = s.modBuf b g := by
  unfold State.modBuf
  rw [h]

@[simp] theorem modChan_modChan (s : State) (c : ChanIx) (f g : Chan → Chan) :
    (s.modChan c f).modChan c g = s.modChan c fun x => g (f x) := by
  unfold State.modChan State.setChan State.chan
  simp only [State.mk.injEq, and_self, true_and, and_true]
  apply vector_ext_get
  intro i
  simp only [vector_get_set]
  split <;> simp_all

theorem modChan_congr (s : State) (c : ChanIx) {f g : Chan → Chan} (h : f (s.chan c) = g (s.chan c)) :
    s.modChan c f = s.modChan c g := by
  unfold State.modChan
  rw [h]

/-! ## One order for updates of different parts: the lists first, then records, then channels, then ports -/

@[simp] theorem modPort_setFreeList_comm (s : State) (p : Port) (f : PortState → PortState) (l : List BufIx) : (s.modPort p f).setFreeList l = (s.setFreeList l).modPort p f := rfl
@[simp] theorem modPort_setClaimWait_comm (s : State) (p : Port) (f : PortState → PortState) (w : List Port) : (s.modPort p f).setClaimWait w = (s.setClaimWait w).modPort p f := rfl
@[simp] theorem modPort_setFreeDraws_comm (s : State) (p : Port) (f : PortState → PortState) (n : Nat) : (s.modPort p f).setFreeDraws n = (s.setFreeDraws n).modPort p f := rfl
@[simp] theorem modPort_served_comm (s : State) (p : Port) (f : PortState → PortState) (r : Requester) : (s.modPort p f).served r = (s.served r).modPort p f := rfl
@[simp] theorem modBuf_setFreeList_comm (s : State) (b : BufIx) (g : BufRec → BufRec) (l : List BufIx) : (s.modBuf b g).setFreeList l = (s.setFreeList l).modBuf b g := rfl
@[simp] theorem modBuf_setClaimWait_comm (s : State) (b : BufIx) (g : BufRec → BufRec) (w : List Port) : (s.modBuf b g).setClaimWait w = (s.setClaimWait w).modBuf b g := rfl
@[simp] theorem modBuf_setFreeDraws_comm (s : State) (b : BufIx) (g : BufRec → BufRec) (n : Nat) : (s.modBuf b g).setFreeDraws n = (s.setFreeDraws n).modBuf b g := rfl
@[simp] theorem modBuf_served_comm (s : State) (b : BufIx) (g : BufRec → BufRec) (r : Requester) : (s.modBuf b g).served r = (s.served r).modBuf b g := rfl
@[simp] theorem modChan_setFreeList_comm (s : State) (c : ChanIx) (h : Chan → Chan) (l : List BufIx) : (s.modChan c h).setFreeList l = (s.setFreeList l).modChan c h := rfl
@[simp] theorem modChan_setClaimWait_comm (s : State) (c : ChanIx) (h : Chan → Chan) (w : List Port) : (s.modChan c h).setClaimWait w = (s.setClaimWait w).modChan c h := rfl
@[simp] theorem modChan_setFreeDraws_comm (s : State) (c : ChanIx) (h : Chan → Chan) (n : Nat) : (s.modChan c h).setFreeDraws n = (s.setFreeDraws n).modChan c h := rfl
@[simp] theorem modChan_served_comm (s : State) (c : ChanIx) (h : Chan → Chan) (r : Requester) : (s.modChan c h).served r = (s.served r).modChan c h := rfl
@[simp] theorem modPort_modBuf_comm (s : State) (p : Port) (f : PortState → PortState) (b : BufIx) (g : BufRec → BufRec) :
    (s.modPort p f).modBuf b g = (s.modBuf b g).modPort p f := rfl
@[simp] theorem modPort_modChan_comm (s : State) (p : Port) (f : PortState → PortState) (c : ChanIx) (g : Chan → Chan) :
    (s.modPort p f).modChan c g = (s.modChan c g).modPort p f := rfl
@[simp] theorem modChan_modBuf_comm (s : State) (c : ChanIx) (f : Chan → Chan) (b : BufIx) (g : BufRec → BufRec) :
    (s.modChan c f).modBuf b g = (s.modBuf b g).modChan c f := rfl

/-- Two states are equal when their ports, records and channels are, one by one, and their other fields are. -/
theorem state_ext_get {s t : State} (hp : ∀ p, s.port p = t.port p) (hb : ∀ b, s.buf b = t.buf b)
    (hc : ∀ c, s.chan c = t.chan c)
    (hr : { s with ports := t.ports, buffers := t.buffers, channels := t.channels } = t) : s = t := by
  rw [← hr]
  have h1 : s.ports = t.ports := vector_ext_get hp
  have h2 : s.buffers = t.buffers := vector_ext_get hb
  have h3 : s.channels = t.channels := vector_ext_get hc
  rw [← h1, ← h2, ← h3]

/-! ## Grants (R16, R17, R29, R125, R126) -/

/-- A granted table operation is carried out whole. -/
theorem tableOp_granted {s : State} {r : Requester} {op : TableOp} (h : s.grants r op = true) (body : Work → Work) :
    s.tableOp r op body = (body (Work.start (s.served r))).finish := by
  unfold State.tableOp
  rw [if_pos h]

/-- An operation that is not granted has no effect (log 3). -/
theorem tableOp_not_granted {s : State} {r : Requester} {op : TableOp} (h : s.grants r op = false) (body : Work → Work) :
    s.tableOp r op body = s := by
  unfold State.tableOp
  simp [h]

theorem tableRequest_granted {s : State} {p : Port} {c : ReqCode} (h : s.grants (.re p) (.request c) = true)
    (body : Work → Work) : s.tableRequest p c body = (body (Work.start (s.served (.re p)))).finish :=
  tableOp_granted h body

theorem blockRequest_ready {s : State} {p : Port} {c : ReqCode} (h : s.blockReady p c = true) (body : Work → Work) :
    s.blockRequest p c body = (body (Work.start s)).finish := by
  unfold State.blockRequest
  rw [if_pos h]

theorem bankGrant_granted {s : State} {p : Port} {r : BankRequest} (h : s.bankGrants p r) (body : State → State) :
    s.bankGrant p r.what body = body (s.occupied r.bank p) := by
  unfold State.bankGrant
  rw [h.1]
  simp [h.2, State.occupied]

theorem bankDone_done {s : State} {p : Port} {r : BankRequest} (hr : s.resetLow = false) (hp : (s.port p).path = some r)
    (ha : (s.arbiter r.bank).current = some (.port p)) (body : State → State) :
    s.bankDone p r.what body =
      body ((s.modArbiter r.bank fun a => { a with current := none }).modPort p fun x => { x with path := none }) := by
  unfold State.bankDone
  rw [hp]
  simp [hr, ha]

/-- What a grant of the Table Arbiter says of the state: /RESET is high, and the requester offers the operation. -/
theorem grants_offer {s : State} {r : Requester} {op : TableOp} (h : s.grants r op = true) :
    s.resetLow = false ∧ s.offer r = some op := by
  unfold State.grants State.tableChoice at h
  simp only [Bool.and_eq_true, beq_iff_eq] at h
  refine ⟨?_, h.2⟩
  by_contra e
  simp [Bool.not_eq_false] at e
  simp [e] at h

/-- A granted table operation of a request is that of the engine's current request, BUSY with nothing begun, in a port that is not RESETTING. -/
theorem grants_request {s : State} {p : Port} {c : ReqCode} (h : s.grants (.re p) (.request c) = true) :
    s.resetLow = false ∧ s.sessionState p ≠ .resetting ∧ (s.port p).engine.state = .busy ∧ (s.port p).engine.bulk = none ∧
      (s.port p).engine.claimed = none ∧ (s.port p).engine.close = none ∧
      ∃ r, (s.port p).engine.request = some r ∧ r.code = c := by
  obtain ⟨hr, ho⟩ := grants_offer h
  refine ⟨hr, ?_⟩
  simp only [State.offer] at ho
  split at ho
  · cases ho
  · rename_i hs
    refine ⟨hs, ?_⟩
    unfold Engine.offer at ho
    split at ho
    · cases ho
    · split at ho <;> (try split at ho) <;> cases ho
    · split at ho
      · split at ho <;> cases ho
      · split at ho
        · cases ho
        · split at ho
          · cases ho
          · split at ho
            · split at ho
              · simp_all
              · cases ho
            · cases ho

/-! ## Completions and records (R30 to R32, R150) -/

@[simp] theorem served_operand (s : State) (r : Requester) (p : Port) (i : Fin 6) :
    (s.served r).operand p i = s.operand p i := rfl
@[simp] theorem served_operands (s : State) (r : Requester) (p : Port) : (s.served r).operands p = s.operands p := rfl
@[simp] theorem served_checkHandle (s : State) (r : Requester) (h : Word) : (s.served r).checkHandle h = s.checkHandle h := rfl
@[simp] theorem served_sessionState (s : State) (r : Requester) (p : Port) :
    (s.served r).sessionState p = s.sessionState p := rfl
@[simp] theorem served_attached (s : State) (r : Requester) (p : Port) : (s.served r).attached p = s.attached p := rfl
@[simp] theorem served_belowQuota (s : State) (r : Requester) (p : Port) : (s.served r).belowQuota p = s.belowQuota p := rfl

@[simp] theorem start_state (s : State) : (Work.start s).state = s := rfl
@[simp] theorem start_owed (s : State) : (Work.start s).owed = [] := rfl
@[simp] theorem map_state (w : Work) (f : State → State) : (w.map f).state = f w.state := rfl
@[simp] theorem map_owed (w : Work) (f : State → State) : (w.map f).owed = w.owed := rfl

/-- A record handed to a port that is not DETACHED goes to its queue. -/
theorem place_attached {s : State} {p : Port} (h : s.sessionState p ≠ .detached) (r : Record) :
    s.place p r = s.modPort p fun x => { x with notes := x.notes.hand r } := by
  unfold State.place
  rw [if_neg h]

/-- A DETACHED port keeps no record. -/
theorem place_detached {s : State} {p : Port} (h : s.sessionState p = .detached) (r : Record) : s.place p r = s := by
  unfold State.place
  rw [if_pos h]

/-- An operation that ends with no record owed. -/
theorem finish_of_owed_nil {w : Work} (h : w.owed = []) : w.finish = w.state := by
  unfold Work.finish
  rw [h]
  rfl

/-- A record placed in one port's queue and an update of another port commute, when the update leaves the first port's session. -/
theorem place_modPort_other (s : State) {p q : Port} (h : p ≠ q) (r : Record) (f : PortState → PortState) :
    (s.modPort q f).place p r = (s.place p r).modPort q f := by
  have hs : (s.modPort q f).sessionState p = s.sessionState p := by simp [State.sessionState, port_modPort_other _ h]
  unfold State.place
  rw [hs]
  split
  · rfl
  · rw [modPort_comm _ (Ne.symm h)]

theorem foldl_place_modPort_other (l : List (Port × Record)) (q : Port) (f : PortState → PortState)
    (h : ∀ n ∈ l, n.1 ≠ q) (s : State) :
    l.foldl (fun s n => s.place n.1 n.2) (s.modPort q f) = (l.foldl (fun s n => s.place n.1 n.2) s).modPort q f := by
  induction l generalizing s with
  | nil => rfl
  | cons n l ih =>
    simp only [List.foldl_cons]
    rw [place_modPort_other _ (h n (List.mem_cons_self ..)), ih fun m hm => h m (List.mem_cons_of_mem _ hm)]

/-- Records placed in other ports' queues leave a port as it is. -/
theorem foldl_place_port_other (l : List (Port × Record)) (q : Port) (h : ∀ n ∈ l, n.1 ≠ q) (s : State) :
    (l.foldl (fun s n => s.place n.1 n.2) s).port q = s.port q := by
  induction l generalizing s with
  | nil => rfl
  | cons n l ih =>
    simp only [List.foldl_cons]
    rw [ih fun m hm => h m (List.mem_cons_of_mem _ hm)]
    unfold State.place
    split
    · rfl
    · exact port_modPort_other _ (Ne.symm (h n (List.mem_cons_self ..))) _

/-- A completion at the end of an operation that owes records to other ports alone: what the operation comes to without it, with this
port's request completed. -/
theorem finish_complete_of_others {w : Work} {p : Port} (h : ∀ n ∈ w.owed, n.1 ≠ p) (c : ResultCode) (r : Vector Word 4)
    (long : Bool) : (w.complete p c r long).finish = w.finish.modPort p fun x => x.completes c r long := by
  have hport := foldl_place_port_other w.owed p h w.state
  have hmove := foldl_place_modPort_other w.owed p (fun x => { x with engine := x.engine.completed c r }) h w.state
  unfold Work.complete Work.finish
  simp only [modEngine_eq_modPort]
  generalize hfin : List.foldl (fun s n => s.place n.1 n.2) w.state w.owed = fin at hport hmove ⊢
  rw [← hport]
  by_cases hn : noticeDue (fin.port p).config.noticeMode long = true
  · rw [if_pos hn, List.foldl_append, hmove]
    simp only [List.foldl_cons, List.foldl_nil]
    by_cases hd : (fin.port p).session.state = .detached
    · rw [place_detached (by simpa [State.sessionState] using hd)]
      apply modPort_congr
      simp [PortState.completes, hd]
    · rw [place_attached (by simpa [State.sessionState] using hd), modPort_modPort]
      apply modPort_congr
      simp [PortState.completes, hd, hn, bne_iff_ne]
  · rw [if_neg hn, hmove]
    apply modPort_congr
    simp [PortState.completes, hn]

/-- The one completion at the end of an operation that owed nothing before it. -/
theorem finish_complete {w : Work} (h : w.owed = []) (p : Port) (c : ResultCode) (r : Vector Word 4) (long : Bool) :
    (w.complete p c r long).finish = w.state.modPort p fun x => x.completes c r long := by
  rw [finish_complete_of_others (by simp [h]), finish_of_owed_nil h]

/-- A granted request that is refused changes nothing but its own completion. -/
theorem finish_refuse (s : State) (p : Port) (c : ResultCode) :
    ((Work.start (s.served (.re p))).refuse p c).finish = s.answered p c := finish_complete rfl p c res0 false

/-- A completion owes records to its own port alone. -/
theorem complete_owed {w : Work} {p q : Port} (h : ∀ n ∈ w.owed, n.1 ≠ q) (hpq : p ≠ q) (c : ResultCode) (r : Vector Word 4)
    (long : Bool) : ∀ n ∈ (w.complete p c r long).owed, n.1 ≠ q := by
  unfold Work.complete
  intro n hn
  simp only at hn
  split at hn
  · rcases List.mem_append.1 hn with hm | hm
    · exact h n hm
    · simp only [List.mem_singleton] at hm
      rw [hm]
      exact hpq
  · exact h n hn

end Sys2Proof.Machine
end

