-- ==== Sys2Proof/Laws/Settle.lean ====
section
/-! SUPPORT. What follows each command by itself: settle touches the ports, the sweep position and the Lease Monitor's offer, and in a port
only the access path and the mover. -/

namespace Sys2Proof.Machine

/-- The two cases of settle. -/
theorem settle_cases (s : State) :
    s.settle = s ∨ ∃ x o, s.settle = { s with ports := s.ports.map PortState.present, sweep := x, lmOffer := o } := by
  unfold State.settle State.offerExpiry
  split
  · exact Or.inl rfl
  · right
    split
    · exact ⟨s.sweep, s.lmOffer, rfl⟩
    · split
      · exact ⟨s.sweep, s.lmOffer, rfl⟩
      · rename_i x _
        exact ⟨x, some x, rfl⟩

@[simp] theorem settle_resetLow (s : State) : s.settle.resetLow = s.resetLow := by
  rcases settle_cases s with h | ⟨_, _, h⟩ <;> rw [h]
@[simp] theorem settle_buffers (s : State) : s.settle.buffers = s.buffers := by
  rcases settle_cases s with h | ⟨_, _, h⟩ <;> rw [h]
@[simp] theorem settle_freeList (s : State) : s.settle.freeList = s.freeList := by
  rcases settle_cases s with h | ⟨_, _, h⟩ <;> rw [h]
@[simp] theorem settle_claimWait (s : State) : s.settle.claimWait = s.claimWait := by
  rcases settle_cases s with h | ⟨_, _, h⟩ <;> rw [h]
@[simp] theorem settle_channels (s : State) : s.settle.channels = s.channels := by
  rcases settle_cases s with h | ⟨_, _, h⟩ <;> rw [h]
@[simp] theorem settle_lastServed (s : State) : s.settle.lastServed = s.lastServed := by
  rcases settle_cases s with h | ⟨_, _, h⟩ <;> rw [h]
@[simp] theorem settle_expiry (s : State) : s.settle.expiry = s.expiry := by
  rcases settle_cases s with h | ⟨_, _, h⟩ <;> rw [h]
@[simp] theorem settle_array (s : State) : s.settle.array = s.array := by
  rcases settle_cases s with h | ⟨_, _, h⟩ <;> rw [h]
@[simp] theorem settle_rows (s : State) : s.settle.rows = s.rows := by
  rcases settle_cases s with h | ⟨_, _, h⟩ <;> rw [h]
@[simp] theorem settle_arbiters (s : State) : s.settle.arbiters = s.arbiters := by
  rcases settle_cases s with h | ⟨_, _, h⟩ <;> rw [h]
@[simp] theorem settle_refresh (s : State) : s.settle.refresh = s.refresh := by
  rcases settle_cases s with h | ⟨_, _, h⟩ <;> rw [h]
@[simp] theorem settle_intervalCounter (s : State) : s.settle.intervalCounter = s.intervalCounter := by
  rcases settle_cases s with h | ⟨_, _, h⟩ <;> rw [h]
@[simp] theorem settle_usDivider (s : State) : s.settle.usDivider = s.usDivider := by
  rcases settle_cases s with h | ⟨_, _, h⟩ <;> rw [h]
@[simp] theorem settle_msCounter (s : State) : s.settle.msCounter = s.msCounter := by
  rcases settle_cases s with h | ⟨_, _, h⟩ <;> rw [h]
@[simp] theorem settle_timebaseDiv (s : State) : s.settle.timebaseDiv = s.timebaseDiv := by
  rcases settle_cases s with h | ⟨_, _, h⟩ <;> rw [h]
@[simp] theorem settle_refreshInterval (s : State) : s.settle.refreshInterval = s.refreshInterval := by
  rcases settle_cases s with h | ⟨_, _, h⟩ <;> rw [h]
@[simp] theorem settle_urgentDebt (s : State) : s.settle.urgentDebt = s.urgentDebt := by
  rcases settle_cases s with h | ⟨_, _, h⟩ <;> rw [h]
@[simp] theorem settle_supen (s : State) : s.settle.supen = s.supen := by
  rcases settle_cases s with h | ⟨_, _, h⟩ <;> rw [h]
@[simp] theorem settle_sup (s : State) : s.settle.sup = s.sup := by
  rcases settle_cases s with h | ⟨_, _, h⟩ <;> rw [h]
@[simp] theorem settle_freeDraws (s : State) : s.settle.freeDraws = s.freeDraws := by
  rcases settle_cases s with h | ⟨_, _, h⟩ <;> rw [h]
@[simp] theorem settle_pending (s : State) : s.settle.pending = s.pending := by
  rcases settle_cases s with h | ⟨_, _, h⟩ <;> rw [h]

@[simp] theorem settle_buf (s : State) (b : BufIx) : s.settle.buf b = s.buf b := by
  rw [State.buf, State.buf, settle_buffers]
@[simp] theorem settle_chan (s : State) (c : ChanIx) : s.settle.chan c = s.chan c := by
  rw [State.chan, State.chan, settle_channels]
@[simp] theorem settle_arbiter (s : State) (k : BankIx) : s.settle.arbiter k = s.arbiter k := by
  rw [State.arbiter, State.arbiter, settle_arbiters]
@[simp] theorem settle_bankRefresh (s : State) (k : BankIx) : s.settle.bankRefresh k = s.bankRefresh k := by
  rw [State.bankRefresh, State.bankRefresh, settle_refresh]
@[simp] theorem settle_cell (s : State) (a : Nat) : s.settle.cell a = s.cell a := by
  unfold State.cell
  rw [settle_array, settle_rows]
@[simp] theorem settle_bufByte (s : State) (b : BufIx) (o : Nat) : s.settle.bufByte b o = s.bufByte b o := settle_cell s _

/-- A port after settle is the port as it was, or with its path presenting. -/
theorem settle_port_cases (s : State) (p : Port) : s.settle.port p = s.port p ∨ s.settle.port p = (s.port p).present := by
  rcases settle_cases s with h | ⟨_, _, h⟩
  · rw [h]
    exact Or.inl rfl
  · rw [h]
    right
    simp [State.port, Vector.get]

/-- Presenting changes the path, and in the engine the mover alone. -/
theorem present_frame (x : PortState) :
    ∃ path bulk, x.present = { x with path := path, engine := { x.engine with bulk := bulk } } := by
  unfold PortState.present
  split
  · exact ⟨x.path, x.engine.bulk, rfl⟩
  · split
    · rename_i r _
      exact ⟨some r, x.engine.bulk, rfl⟩
    · exact ⟨_, _, rfl⟩

/-- The fields of a port that settle leaves alone. -/
theorem settle_port_frame (s : State) (p : Port) :
    ∃ path bulk, s.settle.port p = { s.port p with path := path, engine := { (s.port p).engine with bulk := bulk } } := by
  rcases settle_port_cases s p with h | h
  · exact ⟨(s.port p).path, (s.port p).engine.bulk, h⟩
  · rw [h]
    exact present_frame _

@[simp] theorem settle_port_windowA (s : State) (p : Port) : (s.settle.port p).windowA = (s.port p).windowA := by
  obtain ⟨_, _, h⟩ := settle_port_frame s p
  rw [h]
@[simp] theorem settle_port_windowB (s : State) (p : Port) : (s.settle.port p).windowB = (s.port p).windowB := by
  obtain ⟨_, _, h⟩ := settle_port_frame s p
  rw [h]
@[simp] theorem settle_port_stream (s : State) (p : Port) : (s.settle.port p).stream = (s.port p).stream := by
  obtain ⟨_, _, h⟩ := settle_port_frame s p
  rw [h]
@[simp] theorem settle_port_config (s : State) (p : Port) : (s.settle.port p).config = (s.port p).config := by
  obtain ⟨_, _, h⟩ := settle_port_frame s p
  rw [h]
@[simp] theorem settle_port_access (s : State) (p : Port) : (s.settle.port p).access = (s.port p).access := by
  obtain ⟨_, _, h⟩ := settle_port_frame s p
  rw [h]
@[simp] theorem settle_port_notes (s : State) (p : Port) : (s.settle.port p).notes = (s.port p).notes := by
  obtain ⟨_, _, h⟩ := settle_port_frame s p
  rw [h]
@[simp] theorem settle_port_session (s : State) (p : Port) : (s.settle.port p).session = (s.port p).session := by
  obtain ⟨_, _, h⟩ := settle_port_frame s p
  rw [h]
@[simp] theorem settle_port_teardown (s : State) (p : Port) : (s.settle.port p).teardown = (s.port p).teardown := by
  obtain ⟨_, _, h⟩ := settle_port_frame s p
  rw [h]
@[simp] theorem settle_port_charge (s : State) (p : Port) : (s.settle.port p).charge = (s.port p).charge := by
  obtain ⟨_, _, h⟩ := settle_port_frame s p
  rw [h]
@[simp] theorem settle_port_quota (s : State) (p : Port) : (s.settle.port p).quota = (s.port p).quota := by
  obtain ⟨_, _, h⟩ := settle_port_frame s p
  rw [h]
@[simp] theorem settle_port_prstLow (s : State) (p : Port) : (s.settle.port p).prstLow = (s.port p).prstLow := by
  obtain ⟨_, _, h⟩ := settle_port_frame s p
  rw [h]
@[simp] theorem settle_port_dataBus (s : State) (p : Port) : (s.settle.port p).dataBus = (s.port p).dataBus := by
  obtain ⟨_, _, h⟩ := settle_port_frame s p
  rw [h]
@[simp] theorem settle_sessionState (s : State) (p : Port) : s.settle.sessionState p = s.sessionState p := by
  rw [State.sessionState, State.sessionState, settle_port_session]

end Sys2Proof.Machine
end

