-- ==== Sys2Proof/WellFormed.lean ====
section
/-! DEFINITION. Which commands are spelled by the row that names them: a command that another row spells is ill formed. -/

namespace Sys2Proof

/-- A BAD_REQUEST carries an unknown request code; a REFUSED carries a write that has a byte enable; a REGISTER_WRITE goes to OPD0 to
OPD5 or to an address whose writes have no behaviour of their own. Every other command is well formed by its type. -/
def Instr.wf (i : Instr) : Bool :=
  match i with
  | .badRequest _ word => (Machine.reqCodeOf (Machine.lowByte word)).isNone
  | .refused _ _ lanes => lanes.lo || lanes.hi
  | .registerWrite _ addr _ _ =>
    match Machine.placeOf addr with
    | .req | .pstat | .pcfg | .streamSettings | .streamData | .window _ _ => false
    | .opd _ | .rsp | .res _ | .note0 | .note1 | .note2 | .note3 | .windowStatus _ | .globalStatus | .freeCount
    | .ownCharge | .ownQuota | .zeros | .ones => true
  | .claim _ _ | .release _ _ | .adopt _ _ | .renew _ _ | .query _ _ | .cancel _ _ _ | .cancelOperation _
  | .openChannel _ _ | .post _ _ | .take _ _ | .channelStatus _ _ | .closeChannel _ _ | .closeStep _ | .closeLastStep _
  | .setLease _ _ | .map _ _ | .unmap _ _ | .fill _ _ | .copy _ _ | .zeroFillStart _ | .fillBurst _ _
  | .copyBurstRead _ _ | .copyBurstWrite _ _ | .endStep _ | .attach _ _ | .quiesce _ _ | .resume _ _ | .detach _ _
  | .setParam _ _ | .setQuota _ _ | .clearStatus _ _ | .waitTimerExpiry _ | .timeoutOperation _ | .leaseRunOut _ _
  | .expiryOperation | .windowRead _ _ _ | .windowReadGrant _ _ | .windowWrite _ _ _ _ _ | .windowWriteGrant _ _
  | .streamSettingsWrite _ _ _ | .streamDataRead _ | .streamReadGrant _ _ | .streamDataWrite _ _ _
  | .streamWriteGrant _ _ | .note0Pop _ | .pstatWrite _ _ _ | .pcfgWrite _ _ _ | .usTick | .msTick | .intervalExpiry
  | .rowRefresh _ _ | .prstFalling _ | .prstRising _ | .fenceStep _ | .roleStep _ | .channelStep _ | .finalStep _
  | .resetFalling | .resetRising _ _ | .powerOn => true

end Sys2Proof
end

