-- ==== Sys2Proof/Tests/Slice0.lean ====
section
/-! SUPPORT. Tests of one step each from the manual's examples, the smoke test of WellFormed, and a witness for the hypotheses of every
statement. -/

namespace Sys2Proof.Tests

open Sys2Proof Sys2Proof.Machine

-- One theorem after another: elaborated at once, the many that wait for the kernel take more threads than memory holds.
set_option Elab.async false

/-! ## Small states -/

/-- P0, P1 and P2 attached, after reset. -/
def base : State :=
  [0, 1, 2].foldl (fun (s : State) p => s.modSession p fun x => { x with state := .active }) State.reset

/-- The port's engine BUSY with a request and its operands. -/
def busy (s : State) (p : Port) (c : ReqCode) (o : Vector Word 6) (zero : Bool := false) (head : Bool := false) : State :=
  s.modEngine p fun e =>
    { e with
      state := .busy, request := some { code := c, zero := zero, head := head }, operands := some o,
      reqWord := reqWordOf c zero head }

/-- The port's engine WAITING for a CLAIM or a TAKE. -/
def waits (s : State) (p : Port) (c : ReqCode) (t : Option WaitTimer) : State :=
  s.modEngine p fun e =>
    { e with
      state := .waiting, request := some { code := c, zero := false, head := false }
      operands := some (Vector.replicate 6 0), timer := t, reqWord := reqWordOf c false false }

/-- Operand words from the left, the rest 0. -/
def ops (a : Word) (b c d e : Word := 0) : Vector Word 6 := #v[a, b, c, d, e, 0]

/-- A buffer held by a port. -/
def held (s : State) (b : BufIx) (p : Port) (l : Option Lease := none) : State :=
  (((s.modBuf b fun r => { r with holder := some { port := p, lease := l } }).raiseCharge p).setFreeList
    (s.freeList.erase b))

/-- A buffer read by a port, posted by P1. -/
def reading (s : State) (b : BufIx) (p : Port) (l : Option Lease := none) : State :=
  (((s.modBuf b fun r =>
    { r with readers := r.readers ++ [{ port := p, lease := l }], origin := some 1 }).raiseCharge p).setFreeList
      (s.freeList.erase b))

/-- A channel's fields: sources P0 to P3, capacity 2. -/
def setup (k : ChanKind) (d : PortMask) (f : FullPolicy := .refuse) : ChanSetup :=
  { kind := k, destinations := d, sources := 15, capacity := 2, policy := f, notice := .every }

/-- An OPEN channel with a queue and take waiters. -/
def opened (s : State) (c : ChanIx) (u : ChanSetup) (q : List BufIx) (w : PortMask := 0) : State :=
  s.setChan c { status := .opened u, queue := q, takeWaiters := w }

/-- A queued buffer's record: pending for ports, posted by P1. -/
def queued (s : State) (b : BufIx) (c : ChanIx) (d : PortMask) : State :=
  (s.modBuf b fun r => { r with pending := d, channel := some c, origin := some 1 }).setFreeList (s.freeList.erase b)

/-- The state a command answers. -/
def after (c : Instr) (s : State) : State :=
  match exec c s with
  | .next t => t
  | .fault _ => s
  | .refused _ => s

/-- A bank request presented by the port's path. -/
def presents (s : State) (p : Port) (b : BufIx) (o : Nat) (w : PathRequest) : State :=
  s.modPort p fun x => { x with path := some (requestAt b o w) }

/-- An open access of the port. -/
def accesses (s : State) (p : Port) (k : AccessKind) (b : BufIx) (o : Nat) (ph : AccessPhase) : State :=
  s.modPort p fun x =>
    { x with access := some { kind := k, window := .a, buffer := b, offset := o, rearmed := false, phase := ph } }

/-- The port's window A mapped onto a buffer at generation 0. -/
def mapped (s : State) (p : Port) (b : BufIx) (m : WindowMode) (n : Nat := 0) : State :=
  s.modPort p fun x => { x with windowA := .mapped { handle := handleOf 0 b, mode := m, length := n } }

/-- A FILL of 64 bytes at offset 0 of a buffer. -/
def filling (b : BufIx) (a : Bool := false) (ph : BulkPhase := .moving) : Bulk :=
  { kind := .fill, destination := { buffer := b, generation := 0, offset := 0 }, source := none, count := 64,
    direction := .ascending, patternEven := 0xAB, patternOdd := 0x12, bytesDone := 0, abort := a, phase := ph,
    readRun := none }

/-- A COPY of 4 bytes from one buffer to another. -/
def copying (s d : BufIx) (a : Bool := false) (run : Option (List Byte) := none) : Bulk :=
  { kind := .copy, destination := { buffer := d, generation := 0, offset := 0 },
    source := some { buffer := s, generation := 0, offset := 0 }, count := 4, direction := .descending, patternEven := 0,
    patternOdd := 0, bytesDone := 0, abort := a, phase := .moving, readRun := run }

/-- The port's mover holds an operation, for a request of the code. -/
def moving (s : State) (p : Port) (c : ReqCode) (m : Bulk) : State :=
  (busy s p c (ops 0)).modEngine p fun e => { e with bulk := some m }

/-! ## WellFormed: each check refuses an ill-formed command -/

theorem test_wf_badRequest : (Instr.badRequest 0 0x0001).wf = false ∧ (Instr.badRequest 0 0x0000).wf = true := by decide
theorem test_wf_refused :
    (Instr.refused 0 1 { lo := false, hi := false }).wf = false ∧ (Instr.refused 0 1 { lo := true, hi := false }).wf = true := by
  decide
theorem test_wf_registerWrite :
    (Instr.registerWrite 0 0x000 1 bothLanes).wf = false ∧ (Instr.registerWrite 0 0x018 1 bothLanes).wf = false ∧
      (Instr.registerWrite 0 0x200 1 bothLanes).wf = false ∧ (Instr.registerWrite 0 0x006 1 bothLanes).wf = true := by decide

/-! ## Formats (Chapter 11) -/

/-- R168: valid marker in bit 15, generation in bits 14 to 8, index in bits 7 to 0. -/
theorem test_handle : handleOf 4 17 = 0x8411#16 ∧ handleGen 0x8411 = 4 ∧ handleIx 0x8411 = 17 ∧ handleValid 0x0411 = false := by
  decide
/-- R119: nine bits with an odd number of ones. -/
theorem test_parity : parityBit 0x00 = true ∧ parityBit 0x01 = false ∧ parityBit 0xFF = true := by decide
/-- R95: under BIG the low lane carries the byte at the odd offset. -/
theorem test_lanes : lanesWord .little 0xAB 0x12 = 0x12AB#16 ∧ lanesWord .big 0xAB 0x12 = 0xAB12#16 := by decide
/-- R111: a pattern of 0x12AB under LITTLE writes 0xAB at even offsets. -/
theorem test_pattern : evenByte .little 0x12AB = 0xAB#8 ∧ oddByte .little 0x12AB = 0x12#8 ∧ evenByte .big 0x12AB = 0x12#8 := by
  decide
/-- R118: buffer 9 lies in bank 1, rows 4 and 5. -/
theorem test_layout : bankOf 9 = 1 ∧ rowOf 9 0 = 4 ∧ rowOf 9 256 = 5 := by decide
/-- R99: an offset above 512 is taken as 512; the lowest bit is cleared. -/
theorem test_stream_offset :
    (streamOfSettings (513#16 <<< 4)).pointer = 512 ∧ (streamOfSettings (7#16 <<< 4)).pointer = 6 := by decide

/-! ## One step each -/

/-- 1.4, example: P2 waits for a buffer; P0 releases buffer 17 at generation 3; P2 holds it at generation 4. -/
theorem test_release_to_waiter :
    let s := (((busy (held base 17 0) 0 .release (ops 0x8311)).modBuf 17 fun r => { r with generation := 3 }).setFreeList
      []).setClaimWait [2]
    let t := after (.release 0 .carriedOut) (waits s 2 .claim (some (.count 50)))
    (t.buf 17).holder = some { port := 2, lease := none } ∧ (t.buf 17).generation = 4 ∧ t.freeList = [] ∧
      t.claimWait = [] ∧ (t.port 2).engine.res.get 0 = 0x8411#16 ∧ (t.port 2).charge = 1 := by decide +kernel

/-- R37: the first CLAIM after reset receives buffer 0. -/
theorem test_claim_first :
    let t := after (.claim 0 .carriedOut) (busy base 0 .claim (ops 0))
    (t.buf 0).holder = some { port := 0, lease := none } ∧ (t.port 0).engine.res.get 0 = 0x8000#16 ∧
      t.freeList.head? = some 1 ∧ (t.port 0).engine.state = .idle := by decide +kernel

/-- R25: a DETACHED port's CLAIM completes SESSION with its REQ write. -/
theorem test_claim_detached :
    ((after (.claim 3 (.written false false)) base).port 3).engine.rspWord = 0x1400#16 := by decide +kernel

/-- R24: the REQ write makes the engine BUSY with result NONE. -/
theorem test_claim_written :
    ((after (.claim 0 (.written true false)) base).port 0).engine.rspWord = 0x0001#16 ∧
      ((after (.claim 0 (.written true false)) base).port 0).engine.reqWord = 0x0101#16 := by decide +kernel

/-- R13, R39: a holder cannot release a buffer with a bulk count above 0. -/
theorem test_release_busy :
    ((after (.release 0 .carriedOut) (busy ((held base 5 0).modBuf 5 fun r => { r with bulkCount := 1 }) 0 .release
      (ops 0x8005))).port 0).engine.result = .busyBuffer := by decide +kernel

/-- R57: a TAKE on a UNICAST channel reads the head, which leaves the queue. -/
theorem test_take_head :
    let s := opened (queued (queued base 5 4 1) 9 4 1) 4 (setup .unicast 1) [5, 9]
    let t := after (.take 0 .carriedOut) (busy s 0 .take (ops 4))
    (t.chan 4).queue = [9] ∧ (t.buf 5).state = .reading ∧ (t.port 0).engine.res.get 0 = 0x8005#16 ∧
      (t.port 0).engine.res.get 3 = 1#16 := by decide +kernel

/-- R51: with HEAD the entry joins at the head. -/
theorem test_post_head :
    let s := opened (queued (held base 7 1) 5 4 1) 4 (setup .unicast 1) [5]
    let t := after (.post 1 .carriedOut) (busy s 1 .post (ops 0x8007 4 100 0xBEEF) false true)
    (t.chan 4).queue = [7, 5] ∧ (t.buf 7).state = .queued ∧ (t.buf 7).length = 100 ∧
      (t.port 0).notes.records = [mkRecord .arrival 4 1] := by decide +kernel

/-- R61, R62: a close returns the head entry to its origin, and the last step tells nobody but the other destinations. -/
theorem test_close_returns :
    let s := (queued base 5 4 1).setChan 4 { status := .closing (setup .unicast 1) 0, queue := [5], takeWaiters := 0 }
    let t := after (.closeStep 0) ((busy s 0 .closeChannel (ops 4)).modEngine 0 fun e =>
      { e with close := some { channel := 4, returned := 0, discarded := 0 } })
    (t.buf 5).holder = some { port := 1, lease := none } ∧ (t.chan 4).queue = [] ∧
      (t.port 1).notes.records = [{ kind := .returned, subject := 0x8005, value := 4 }] ∧
      (t.port 0).engine.close = some { channel := 4, returned := 1, discarded := 0 } := by decide +kernel

/-- R88, R103: MAP of the stream's window re-arms the stream. -/
theorem test_map_rearms :
    let t := after (.map 0 .carriedOut) (busy ((held base 5 0).modPort 0 fun x =>
      { x with stream := { x.stream with pointer := 8, lengthPrefix := true } }) 0 .map (ops 0x8005 0))
    (t.port 0).windowA = .mapped { handle := 0x8005, mode := .rw, length := 0 } ∧ (t.port 0).stream.pointer = 0 ∧
      (t.port 0).stream.prefixDue = true ∧ t.pdreq 0 = true := by decide +kernel

/-- R104 (log 28): a stream access that waits for its port's path when a MAP re-arms the stream keeps its offset. -/
theorem test_map_keeps_offset :
    let k : AccessKind := .streamRead .held
    let s := presents (accesses (mapped (held base 5 0) 0 5 .rw) 0 k 5 8 .waiting) 0 9 6 .windowWrite
    let t := after (.map 0 .carriedOut) (busy s 0 .map (ops 0x8005 0))
    (t.port 0).access =
      some { kind := k, window := .a, buffer := 5, offset := 8, rearmed := true, phase := .waiting } := by decide +kernel

/-- R23: a write to OPD2 stages its enabled lane, and reads back. -/
theorem test_opd_write :
    let t := after (.registerWrite 0 3 0xABCD { lo := false, hi := true }) base
    t.registerRead 0 3 = some 0xAB00#16 ∧ t.registerRead 0 2 = some 0#16 := by decide +kernel

/-- R93, R95: a write of the high lane alone under BIG changes the byte at the even offset. -/
theorem test_write_big :
    let d : Lanes := { lo := false, hi := true }
    let s := presents (accesses (mapped (held base 5 0) 0 5 .rw) 0 (.windowWrite 0xAB12 d) 5 6 .waiting) 0 5 6 .windowWrite
    let t := after (.windowWriteGrant 0 .granted) (s.modPort 0 fun x => { x with config := { x.config with byteOrder := .big } })
    t.array = [(cellKey 5 6, freshByte 0xAB)] := by decide +kernel

/-- R126, R165: a write is finished at its grant, and the next access can begin while the bank is still occupied. -/
theorem test_write_finished :
    let s := presents (accesses (mapped (held base 5 0) 0 5 .rw) 0 (.windowWrite 0xAB12 bothLanes) 5 6 .waiting) 0 5 6 .windowWrite
    let t := after (.windowWriteGrant 0 .granted) s
    let u := after (.windowRead { port := 0, strobe := .held } .a 3) t
    t.pwait 0 = false ∧ (t.arbiter 1).current = some (.port 0) ∧ u.pwait 0 = true ∧
      (u.port 0).path = some (requestAt 5 6 .windowWrite) ∧
      ((after (.windowWriteGrant 0 .carriedOut) u).port 0).path = some (requestAt 5 6 .windowRead) := by decide +kernel

/-- R165: a read whose strobe rises early pops the queue all the same, and its word is discarded. -/
theorem test_early_strobe :
    let t := after (.note0Pop { port := 0, strobe := .early }) (base.place 0 (mkRecord .arrival 4 2))
    (t.port 0).dataBus = 0#16 ∧ t.registerRead 0 0x011 = some 4#16 := by decide +kernel

/-- R130, 11.6: a row keeps its contents through the 4000th µs tick after its refresh, and may lose them at the next. -/
theorem test_retention :
    let s (n : Nat) : State := { base with rows := base.rows.set 7 { age := n, epoch := 3 } }
    ((after .usTick (s 3999)).rows.get 7).epoch = 3 ∧ ((after .usTick (s 4000)).rows.get 7).epoch = 4 := by decide +kernel

/-- R130, 11.6: the row that goes beyond its retention time drops its cells; another row keeps its own. Buffer 5 has rows 130 and 131. -/
theorem test_row_lost :
    let s := ({ base with rows := base.rows.set 130 { age := 4000, epoch := 3 } } : State).writeByte 5 7 0x12
    let t := after .usTick (s.writeByte 5 300 0x34)
    arrayRow 5 7 = 130 ∧ arrayRow 5 300 = 131 ∧ t.array = [(cellKey 5 300, freshByte 0x34)] ∧
      t.rows.get 130 = { age := 4001, epoch := 4 } := by decide +kernel

/-- R112, R122 (log 27): an access that arrived during the read of a COPY burst goes after that burst's write. -/
theorem test_copy_write_first :
    let s := moving (held base 6 0) 0 .copy
      { filling 6 with source := some { buffer := 5, generation := 0, offset := 0 }, readRun := some [1] }
    ((after (.prstRising 0) (accesses s 0 (.windowRead .held) 9 6 .waiting)).port 0).path.map BankRequest.what =
      some .copyWrite := by decide +kernel

/-- R111: the first burst of a FILL writes 32 bytes. -/
theorem test_fill_burst :
    let t := after (.fillBurst 0 .granted) (presents (moving (held base 5 0) 0 .fill (filling 5)) 0 5 0 .fillBurst)
    t.array.length = 32 ∧ t.bufByte 5 31 = freshByte 0x12 ∧ ((t.port 0).engine.bulk.map Bulk.bytesDone) = some 32 := by
  decide +kernel

/-- R130: an expiry at debt 8 sets the bank's flag and tells the attached ports. -/
theorem test_refresh_missed :
    let t := after .intervalExpiry { base.modRefresh 2 (fun r => { r with debt := 8 }) with intervalCounter := 14 }
    (t.bankRefresh 2).missed = true ∧ (t.bankRefresh 0).debt = 1 ∧ (t.port 1).notes.records = [mkRecord .refreshMissed 2 0] ∧
      (t.port 3).notes.records = [] := by decide +kernel

/-- R130: an expiry that misses at two banks hands each attached port a record for each, in ascending bank number. -/
theorem test_refresh_missed_twice :
    let full (r : RefreshBank) : RefreshBank := { r with debt := 8 }
    let t := after .intervalExpiry { (base.modRefresh 3 full).modRefresh 1 full with intervalCounter := 14 }
    (t.port 1).notes.records = [mkRecord .refreshMissed 1 0, mkRecord .refreshMissed 3 0] ∧
      (t.port 3).notes.records = [] := by decide +kernel

/-- R137: /PRSTn falling makes an attached port RESETTING and sets SESSION_CHANGE. -/
theorem test_prst :
    ((after (.prstFalling 0) base).port 0).session.word = 0x0103#16 ∧
      ((after (.prstFalling 3) base).port 3).session.word = 0x0000#16 := by decide +kernel

/-- R153, R171: a read of NOTE0 returns the kind and latches the record. -/
theorem test_note0 :
    let t := after (.note0Pop { port := 0, strobe := .held }) (base.place 0 (mkRecord .arrival 4 2))
    (t.port 0).dataBus = 1#16 ∧ t.registerRead 0 0x011 = some 4#16 ∧ t.registerRead 0 0x012 = some 2#16 ∧
      t.registerRead 0 0x013 = some 0#16 := by decide +kernel

/-- R161: a change of TIMEBASE_DIV restarts the µs divider and tells the attached ports. -/
theorem test_set_param :
    let t := after (.setParam 0 .carriedOut) { busy base 0 .setParam (ops 1 133) with supen := true, sup := 0, usDivider := 50 }
    t.timebaseDiv = 133 ∧ t.usDivider = 0 ∧ (t.port 2).notes.records = [mkRecord .paramChanged 1 133] ∧
      (t.port 0).engine.result = .ok := by decide +kernel

/-- R164, R172: the global status gives the strap and the supervising port. -/
theorem test_global_status : { base with supen := true, sup := 2 }.registerRead 1 0x020 = some 0x0500#16 := by decide +kernel

/-- The hazard of a read of an unlisted byte: no value is known, only that the read answers. -/
theorem test_undefined_bytes : base.bufByte 0 0 =
    { byte := Config.undefinedByte 0 0, parity := Config.undefinedParity 0 0 } := by rfl

/-! ## Witnesses: a state and operands that meet the hypotheses of each statement, clause by clause -/

/-- EmptyQueueIsOneClkCycle. -/
theorem witness_emptyQueue :
    State.reset.pending = [] ∧ State.reset.resetLow = false ∧ State.reset.usDivider + 1 < State.reset.timebaseDiv ∧
      ({ base with usDivider := 99 } : State).timebaseDiv ≤ ({ base with usDivider := 99 } : State).usDivider + 1 ∧
      ({ base with resetLow := true } : State).resetLow = true := by decide +kernel

/-- DeviceReset: RESET_RISING with /RESET low and high. -/
theorem witness_deviceReset : (after .resetFalling base).resetLow = true ∧ base.resetLow = false := by decide +kernel

/-- A port whose /PRSTn is low. -/
def wLow : State := after (.prstFalling 0) base
/-- LowInputsDropAccesses: a write, a read; /PRSTn low, /RESET low. -/
theorem witness_lowInputs :
    (Instr.pcfgWrite 0 1 bothLanes).busPort = some 0 ∧ (wLow.resetLow = true ∨ (wLow.port 0).prstLow = true) ∧
      (Instr.pcfgWrite 0 1 bothLanes).busReads = none ∧ (Instr.note0Pop { port := 0, strobe := .held }).busPort = some 0 ∧
      (Instr.note0Pop { port := 0, strobe := .held }).busReads = some .held ∧ (Instr.note0Pop { port := 0, strobe := .early }).busReads = some .early ∧
      (after .resetFalling base).resetLow = true := by decide +kernel
/-- LowInputsDropAccesses: /PIRQ and PDREQ asserted, by a record, by a flag, and by either direction of the stream. -/
def wPdreq (d : StreamDir) : State :=
  (mapped (held base 5 0) 0 5 .rw 4).modPort 0 fun x => { x with stream := { x.stream with direction := d } }
theorem witness_pins :
    ((base.modPort 0 fun x => { x with config := { x.config with queueEnable := true } }).place 0
      (mkRecord .arrival 4 1)).pirq 0 = true ∧
    (base.modPort 0 fun x =>
      { x with
        session := { x.session with refused := true }, config := { x.config with refusedEnable := true } }).pirq 0 = true ∧
    (wPdreq .read).pdreq 0 = true ∧ (wPdreq .write).pdreq 0 = true ∧ base.pirq 0 = false ∧ base.pdreq 0 = false := by
  decide +kernel

/-- SettlingFrame: an entry beyond the sweep position and one before it; a FREE path with a COPY's write due, with an access that waits,
with a marked mover, with a COPY's read, with a FILL's burst. -/
def wSweep : State :=
  { base with
    expiry := [({ buffer := 5, role := .reader 1 }, { generation := 0, holder := none })]
    sweep := { buffer := 5, role := .holder } }
theorem witness_settling :
    (wSweep.resetLow = false ∧ wSweep.lmOffer = none ∧ wSweep.sweep.key = 25 ∧
      (wSweep.expiry.map fun e => e.1.key) = [27] ∧ wSweep.settle.lmOffer = some { buffer := 5, role := .reader 1 } ∧
      ({ wSweep with sweep := { buffer := 9, role := .holder } } : State).settle.lmOffer =
        some { buffer := 5, role := .reader 1 }) ∧
    (((moving base 0 .copy (copying 5 6 false (some [1, 2, 3, 4]))).port 0).path = none ∧
      (copying 5 6 false (some [1, 2, 3, 4])).readRun = some [1, 2, 3, 4]) ∧
    (((accesses base 0 (.windowRead .held) 5 6 .waiting).port 0).access.map BusAccess.phase = some .waiting) ∧
    ((filling 5 true).phase = .moving ∧ (filling 5 true).abort = true ∧ (filling 5).abort = false ∧
      (filling 5).source = none ∧ (copying 5 6).source.isSome = true ∧ (copying 5 6).readRun = none) := by decide +kernel

/-- RequestTaken: CLAIM of an ACTIVE port, ATTACH of a DETACHED one. -/
theorem witness_requestTaken :
    (requestCommand 0 (.written true false) .claim = some (.claim 0 (.written true false)) ∧ base.busReady 0 = true ∧
      (base.port 0).engine.state = .idle ∧ admits (base.sessionState 0) .claim = true) ∧
    (requestCommand 3 (.written false false) .attach = some (.attach 3 (.written false false)) ∧ base.busReady 3 = true ∧
      (base.port 3).engine.state = .idle ∧ admits (base.sessionState 3) .attach = true) := by decide +kernel

/-- CompletedAtTheWrite: RESUME of an ACTIVE port, an unknown code. -/
theorem witness_completedAtTheWrite :
    base.busReady 0 = true ∧ (base.port 0).engine.state = .idle ∧ base.sessionState 0 ≠ .resetting ∧
      requestCommand 0 (.written false false) .resume = some (.resume 0 (.written false false)) ∧
      admits (base.sessionState 0) .resume = false ∧ reqCodeOf (lowByte 0x0007#16) = none := by decide +kernel

/-- A RESETTING port. -/
def wResetting : State := base.modSession 0 fun x => { x with state := .resetting }
/-- RefusedReqWrites: /PRSTn low, RESETTING, one lane. -/
theorem witness_refusedReqWrites :
    (wLow.resetLow = false ∧ (Instr.claim 0 (.written false false)).busPort = some 0 ∧
      (Instr.claim 0 (.written false false)).busReads = none ∧ (wLow.port 0).prstLow = true) ∧
    (wResetting.resetLow = false ∧ (wResetting.port 0).prstLow = false ∧ (wResetting.port 0).access = none ∧
      wResetting.sessionState 0 = .resetting) ∧
    ({ lo := true, hi := false } : Lanes).lo ≠ ({ lo := true, hi := false } : Lanes).hi := by decide +kernel

/-- ReqWritesInProgress: BUSY with a table operation; WAITING with and without its timer; BUSY with a bulk operation. -/
theorem witness_reqWritesInProgress :
    ((busy base 0 .claim (ops 0)).busReady 0 = true ∧ ((busy base 0 .claim (ops 0)).port 0).engine.state ≠ .idle ∧
      reqCodeOf (lowByte 0x0001#16) ≠ some .cancel ∧
      requestCommand 0 (.written false false) .claim = some (.claim 0 (.written false false)) ∧
      (busy base 0 .claim (ops 0)).sessionState 0 ≠ .resetting ∧
      ((busy base 0 .claim (ops 0)).port 0).engine.state = .busy ∧
      ((busy base 0 .claim (ops 0)).port 0).engine.bulk = none) ∧
    (((waits base 0 .claim (some .noLimit)).port 0).engine.state = .waiting ∧
      ((waits base 0 .claim (some .noLimit)).port 0).engine.timer ≠ none ∧
      ((waits base 0 .claim none).port 0).engine.timer = none) ∧
    ((moving base 0 .fill (filling 5)).port 0).engine.bulk = some (filling 5) := by decide +kernel

/-- GrantOrders: a requester granted; a bank whose arbiter grants; an urgent and an ordinary refresh, and a port that waits. -/
theorem witness_grantOrders :
    (busy base 0 .claim (ops 0)).tableChoice = some (.re 0) ∧ base.resetLow = false ∧ (base.arbiter 1).current = none ∧
      ((base.modRefresh 1 fun r => { r with debt := 6 }).bankRefresh 1).debt ≠ 0 ∧ base.urgentDebt ≤ 6 ∧
      (base.bankRefresh 1).debt = 0 ∧
      ((presents base 0 5 0 .windowRead).port 0).path = some (requestAt 5 0 .windowRead) ∧ (requestAt 5 0 .windowRead).bank = 1 := by
  decide +kernel

/-- GrantOrders: engines with each kind of operation to offer, and Teardown Units with and without an end step owed. -/
theorem witness_offers :
    (waits base 0 .claim none).offer (.re 0) = some .timeout ∧
    ((waits base 0 .claim none).modEngine 0 fun e => { e with cancelMarker := true }).offer (.re 0) = some .cancel ∧
    (waits base 0 .claim (some .noLimit)).offer (.re 0) = none ∧
    (moving base 0 .fill (filling 5 false (.stopped .ok))).offer (.re 0) = some .endStep ∧
    (moving base 0 .fill (filling 5)).offer (.re 0) = none ∧
    ((busy base 0 .claim (ops 0) true).modEngine 0 fun e => { e with claimed := some 0x8005 }).offer (.re 0) =
      some .zeroFillStart ∧
    (busy base 0 .setLease (ops 0)).offer (.re 0) = none ∧
    ((busy base 0 .claim (ops 0)).modSession 0 fun x => { x with state := .resetting }).offer (.re 0) = none ∧
    ((moving base 0 .fill (filling 5)).modTeardown 0 fun t => { t with phase := .final, endOwed := true }).offer (.tu 0) =
      none ∧
    ((moving base 0 .fill (filling 5 true (.stopped .aborted))).modTeardown 0 fun t =>
      { t with phase := .final, endOwed := true }).offer (.tu 0) = some .endStep ∧
    (base.modTeardown 0 fun t => { t with phase := .final }).offer (.tu 0) = some .final ∧
    { base with lmOffer := some { buffer := 5, role := .holder } }.offer .lm = some .expiry := by decide +kernel

/-- HandleCheckedFirst: a malformed and a stale handle; for COPY, as its source and as its destination. -/
theorem witness_handleChecked :
    ((busy base 0 .query (ops 0x0005)).grants (.re 0) (.request .query) = true ∧
      ((busy base 0 .query (ops 0x0005)).operand 0 0).getLsbD 15 = false) ∧
    (((busy base 0 .query (ops 0x8105)).operand 0 0).getLsbD 15 = true ∧
      ((busy base 0 .query (ops 0x8105)).operand 0 0).extractLsb' 8 7 ≠
        ((busy base 0 .query (ops 0x8105)).buf 5).generation) ∧
    ((busy base 0 .copy (ops 0x8005 0 0x0006)).grants (.re 0) (.request .copy) = true ∧
      ((busy base 0 .copy (ops 0x8005 0 0x0006)).operand 0 0).extractLsb' 8 7 = (base.buf 5).generation ∧
      ((busy base 0 .copy (ops 0x8005 0 0x0006)).operand 0 2).getLsbD 15 = false) := by decide +kernel

/-- The state of a CLAIM at its grant; at its quota; with nothing free. -/
def wClaim (t : Word := 0) : State := busy base 0 .claim (ops 0 t)
def wAtQuota : State := (wClaim 5).modPort 0 fun x => { x with charge := 64 }
def wNoneFree (t : Word) : State := (wClaim t).setFreeList []
/-- ClaimRequest. -/
theorem witness_claim :
    (wClaim.grants (.re 0) (.request .claim) = true ∧ (wClaim.port 0).charge < (wClaim.port 0).quota ∧
      wClaim.freeList = 0 :: wClaim.freeList.tail) ∧
    (wAtQuota.grants (.re 0) (.request .claim) = true ∧ (wAtQuota.port 0).quota ≤ (wAtQuota.port 0).charge) ∧
    ((wNoneFree 0).grants (.re 0) (.request .claim) = true ∧ (wNoneFree 0).freeList = [] ∧
      (wNoneFree 0).operand 0 1 = 0) ∧
    ((wNoneFree 0xFFFF).grants (.re 0) (.request .claim) = true ∧ (wNoneFree 0xFFFF).operand 0 1 ≠ 0) := by decide +kernel

/-- RELEASE of a holding, with nobody waiting and with P2 waiting; of a reader role beside another reader, and of the last one. -/
def wRelease : State := busy (held base 5 0) 0 .release (ops 0x8005)
def wReleaseWait : State := waits (wRelease.setClaimWait [2]) 2 .claim (some .noLimit)
def wReleaseRead : State := busy (reading (reading base 5 0) 5 2) 0 .release (ops 0x8005)
def wReleaseLast : State := busy (reading base 5 0) 0 .release (ops 0x8005)
/-- ReleaseRequest. -/
theorem witness_release :
    (wRelease.grants (.re 0) (.request .release) = true ∧ wRelease.checkHandle (wRelease.operand 0 0) = none ∧
      (wRelease.buf 5).heldBy 0 = true ∧ (wRelease.buf 5).bulkCount = 0 ∧ 0 ∉ wRelease.claimWait ∧
      (∀ q ∈ wRelease.claimWait, wRelease.belowQuota q = false)) ∧
    (wReleaseWait.grants (.re 0) (.request .release) = true ∧ 0 ∉ wReleaseWait.claimWait ∧
      wReleaseWait.claimWait.find? wReleaseWait.belowQuota = some 2) ∧
    (wReleaseRead.grants (.re 0) (.request .release) = true ∧
      wReleaseRead.checkHandle (wReleaseRead.operand 0 0) = none ∧ (wReleaseRead.buf 5).holder = none ∧
      (wReleaseRead.buf 5).readBy 0 = true ∧ (wReleaseRead.buf 5).readers.filter (fun e => e.port != 0) ≠ []) ∧
    (wReleaseLast.grants (.re 0) (.request .release) = true ∧ (wReleaseLast.buf 5).readBy 0 = true ∧
      (wReleaseLast.buf 5).readers.filter (fun e => e.port != 0) = [] ∧ (wReleaseLast.buf 5).pending = 0 ∧
      (wReleaseLast.buf 5).bulkCount = 0) := by decide +kernel

/-- A request of P0 on buffer 5 in a state, with further operands. -/
def on5 (s : State) (c : ReqCode) (b : Word := 0) (c2 d e : Word := 0) : State := busy s 0 c (ops 0x8005 b c2 d e)
/-- RoleChecks: RELEASE, RENEW, ADOPT; MAP, FILL and COPY. -/
theorem witness_roleChecks :
    ((on5 (held base 5 0) .release).grants (.re 0) (.request .release) = true ∧
      (((held base 5 0).modBuf 5 fun r => { r with bulkCount := 4 }).buf 5).bulkCount ≠ 0 ∧
      ((held base 5 0).buf 5).heldBy 0 = true) ∧
    ((on5 base .renew).grants (.re 0) (.request .renew) = true ∧ (base.buf 5).heldBy 0 = false ∧
      (base.buf 5).readBy 0 = false ∧ base.checkHandle 0x8005 = none) ∧
    ((on5 (reading (reading base 5 0) 5 2) .adopt).grants (.re 0) (.request .adopt) = true ∧
      ((reading (reading base 5 0) 5 2).buf 5).readBy 0 = true ∧
      ((reading (reading base 5 0) 5 2).buf 5).readers.length ≠ 1) ∧
    ((on5 base .map).grants (.re 0) (.request .map) = true ∧ (base.buf 5).state ≠ .held ∧ (base.buf 5).state ≠ .reading) ∧
    (((held base 5 1).buf 5).state = .held ∧ ((held base 5 1).buf 5).heldBy 0 = false) ∧
    ((on5 (held base 5 0) .fill 0 1).grants (.re 0) (.request .fill) = true ∧
      ¬((on5 (held base 5 0) .fill 0 1).operand 0 2).toNat % 2 = 0) ∧
    ((on5 (held base 5 0) .copy 0 0x8005 512 2).grants (.re 0) (.request .copy) = true ∧
      ¬((on5 (held base 5 0) .copy 0 0x8005 512 2).operand 0 3).toNat +
        ((on5 (held base 5 0) .copy 0 0x8005 512 2).operand 0 4).toNat ≤ 512) := by decide +kernel

/-- AdoptAndRenew: the sole reader; a holding and a reader role with leases. -/
def wLease : Option Lease := some { remaining := 3, stage := .warned }
theorem witness_adoptAndRenew :
    ((on5 (reading base 5 0) .adopt).grants (.re 0) (.request .adopt) = true ∧
      (on5 (reading base 5 0) .adopt).checkHandle ((on5 (reading base 5 0) .adopt).operand 0 0) = none ∧
      ((on5 (reading base 5 0) .adopt).buf 5).readers = [{ port := 0, lease := none }] ∧
      ((on5 (reading base 5 0) .adopt).buf 5).pending = 0) ∧
    ((on5 (held base 5 0 wLease) .renew).grants (.re 0) (.request .renew) = true ∧
      ((on5 (held base 5 0 wLease) .renew).buf 5).holder = some { port := 0, lease := wLease }) ∧
    ((on5 (reading base 5 0 wLease) .renew).grants (.re 0) (.request .renew) = true ∧
      ((on5 (reading base 5 0 wLease) .renew).buf 5).holder = none ∧
      ((on5 (reading base 5 0 wLease) .renew).buf 5).readers = [] ++ { port := 0, lease := wLease } :: [] ∧
      (((on5 (reading base 5 0 wLease) .renew).buf 5).readers.map Role.port).Nodup) := by decide +kernel

/-- ReportingRequests: QUERY; CHANNEL_STATUS of channel 15 and of 16. -/
theorem witness_reporting :
    ((on5 base .query).grants (.re 0) (.request .query) = true ∧
      (on5 base .query).checkHandle ((on5 base .query).operand 0 0) = none) ∧
    ((busy base 0 .channelStatus (ops 15)).grants (.re 0) (.request .channelStatus) = true ∧
      ((busy base 0 .channelStatus (ops 15)).operand 0 0).toNat = (15 : ChanIx).val ∧ (base.chan 15).status = .closed ∧
      (base.chan 15).queue = []) ∧
    ((opened base 4 (setup .fanout 3) []).chan 4).status = .opened (setup .fanout 3) ∧
    (((opened base 4 (setup .fanout 3) []).modChan 4 fun x => x.closeUnder 1).chan 4).status = .closing (setup .fanout 3) 1 ∧
    (16 ≤ ((busy base 0 .channelStatus (ops 16)).operand 0 0).toNat) := by decide +kernel

/-- An OPEN_CHANNEL of channel 15: FANOUT to P0 and P1, source P0, capacity 255. -/
def wOpen : State := busy base 0 .openChannel (ops 15 0x0103 1 255 3)
/-- OpenChannelOpens. -/
theorem witness_openChannel :
    wOpen.grants (.re 0) (.request .openChannel) = true ∧ (wOpen.operand 0 0).toNat = (15 : ChanIx).val ∧
      (wOpen.chan 15).status = .closed ∧ 2 ≤ (maskPorts 3#4).length ∧
      setupOperand (wOpen.operands 0) =
        { kind := .fanout, destinations := 3, sources := 1, capacity := 255, policy := .displaceOldest, notice := .edge } ∧
      maskHas 3#4 0 = true ∧ (∀ q, maskHas 3#4 q = true → wOpen.attached q = true) := by decide +kernel

/-- ChannelChecks: OPEN_CHANNEL, TAKE, CLOSE_CHANNEL and POST at their refusals. -/
def wOpened (d : PortMask) (q : List BufIx := []) : State := opened base 4 (setup .fanout d) q
theorem witness_channelChecks :
    ((busy base 0 .openChannel (ops 16)).grants (.re 0) (.request .openChannel) = true ∧
      16 ≤ ((busy base 0 .openChannel (ops 16)).operand 0 0).toNat) ∧
    (((wOpened 3).chan 4).status ≠ .closed ∧ ((busy (wOpened 3) 0 .openChannel (ops 4)).operand 0 0).toNat = (4 : ChanIx).val) ∧
    (maskHas (setupOperand ((busy base 0 .openChannel (ops 4 0x0106 1 1)).operands 0)).destinations 0 = false) ∧
    (maskHas (setupOperand ((busy base 0 .openChannel (ops 4 0x0109 1 1)).operands 0)).destinations 3 = true ∧
      base.attached 3 = false) ∧
    ((setupOperand ((busy base 0 .openChannel (ops 4 0x0103 1 256)).operands 0)).capacity = 256) ∧
    ((busy (wOpened 6) 0 .take (ops 4)).grants (.re 0) (.request .take) = true ∧
      ((wOpened 6).chan 4).status = .opened (setup .fanout 6) ∧ maskHas (setup .fanout 6).destinations 0 = false) ∧
    ((busy (wOpened 6) 0 .closeChannel (ops 4)).grants (.re 0) (.request .closeChannel) = true ∧
      (wOpened 6).supervises 0 = false) ∧
    ((on5 (held (wOpened 3 [8, 9]) 5 0) .post 4 513).grants (.re 0) (.request .post) = true ∧
      ((held (wOpened 3 [8, 9]) 5 0).buf 5).heldBy 0 = true ∧ maskHas (setup .fanout 3).sources 0 = true ∧
      513 ≤ ((on5 (held (wOpened 3 [8, 9]) 5 0) .post 4 513).operand 0 2).toNat ∧
      (setup .fanout 3).capacity ≤ ((wOpened 3 [8, 9]).chan 4).queue.length ∧
      maskHas ((wOpened 3 [8, 9]).chan 4).takeWaiters 0 = false) := by decide +kernel

/-- POST of buffer 5 by P0 to channel 4 with length 512: to a queue; to P2, which waits; to the FANOUT channel of P0 to P3, where P1 waits
below its quota and P2 waits at its quota. -/
def wPost : State := on5 (held (opened (queued base 9 4 2) 4 (setup .unicast 2) [9]) 5 0) .post 4 512 7
def wDeliver : State :=
  on5 (held (opened (waits base 2 .take (some .noLimit)) 4 (setup .unicast 4) [] 4) 5 0) .post 4 512 7
def wSome : State :=
  on5 (held (opened (((waits (waits base 2 .take (some .noLimit)) 1 .take (some .noLimit)).modPort 2 fun x =>
    { x with charge := 64 })) 4 (setup .fanout 15) [] 6) 5 0) .post 4 512 7
/-- PostRequest. -/
theorem witness_post :
    (∀ s ∈ [wPost, wDeliver, wSome], s.grants (.re 0) (.request .post) = true ∧ s.checkHandle (s.operand 0 0) = none ∧
      handleIx (s.operand 0 0) = 5 ∧ (s.buf 5).heldBy 0 = true ∧ (s.buf 5).bulkCount = 0 ∧
      (s.operand 0 1).toNat = (4 : ChanIx).val ∧ (s.operand 0 2).toNat ≤ 512 ∧ maskHas (s.chan 4).takeWaiters 0 = false ∧
      5 ∉ (s.chan 4).queue ∧ (s.chan 4).queue.length < (setup .unicast 2).capacity ∧
      (s.chan 4).setup.any (fun u => maskHas u.sources 0) = true) ∧
    (wPost.chan 4).status = .opened (setup .unicast 2) ∧ (wDeliver.chan 4).status = .opened (setup .unicast 4) ∧
    (wSome.chan 4).status = .opened (setup .fanout 15) ∧ wPost.leftPending 4 = 2 ∧ wDeliver.leftPending 4 = 0 ∧
    wSome.takersAt 4 = [1] ∧ wSome.leftPending 4 = 13 := by decide +kernel
/-- R50, R51, R54: of that last POST: P1 reads the buffer, P2 waits on and is told, and the buffer joins the queue for P0, P2 and P3. -/
theorem test_post_some :
    let t := after (.post 0 .carriedOut) wSome
    (t.buf 5).readers = [{ port := 1, lease := none }] ∧ (t.buf 5).pending = 13 ∧ (t.chan 4).queue = [5] ∧
      (t.chan 4).takeWaiters = 4 ∧ (t.port 1).engine.res.get 0 = 0x8005#16 ∧ (t.port 2).engine.state = .waiting ∧
      (t.port 2).notes.records = [mkRecord .arrival 4 1] ∧ (t.port 1).notes.records = [] := by decide +kernel

/-- TakeGivesOrWaits: an eligible entry, none with timeout 0, none with a timeout. -/
def wTake (q : List BufIx) (t : Word) : State :=
  busy (opened (queued base 9 4 3) 4 (setup .fanout 3) q) 0 .take (ops 4 t)
theorem witness_take :
    ((wTake [9] 0).grants (.re 0) (.request .take) = true ∧ ((wTake [9] 0).operand 0 0).toNat = (4 : ChanIx).val ∧
      ((wTake [9] 0).chan 4).status = .opened (setup .fanout 3) ∧ maskHas (setup .fanout 3).destinations 0 = true ∧
      ((wTake [9] 0).port 0).charge < ((wTake [9] 0).port 0).quota ∧
      ((wTake [9] 0).chan 4).queue.find? (fun b => maskHas ((wTake [9] 0).buf b).pending 0) = some 9) ∧
    ((wTake [] 0).grants (.re 0) (.request .take) = true ∧
      ((wTake [] 0).chan 4).queue.find? (fun b => maskHas ((wTake [] 0).buf b).pending 0) = none ∧
      (wTake [] 0).operand 0 1 = 0) ∧
    ((wTake [] 0xFFFF).grants (.re 0) (.request .take) = true ∧ (wTake [] 0xFFFF).operand 0 1 ≠ 0) := by decide +kernel

/-- CloseSequence: the first step with a waiter, the last step, and the disposals. -/
def wClose : State :=
  busy (opened (waits base 2 .take (some .noLimit)) 4 (setup .fanout 5) [] 4) 0 .closeChannel (ops 4)
def wClosing (q : List BufIx) (s : State := queued base 9 4 3) : State :=
  (busy (s.setChan 4 { status := .closing (setup .fanout 3) 0, queue := q, takeWaiters := 0 }) 0 .closeChannel
    (ops 4)).modEngine 0 fun e => { e with close := some { channel := 4, returned := 0, discarded := 0 } }
def wCloseFull : State := wClosing [9] ((queued base 9 4 3).modPort 1 fun x => { x with charge := 64 })
theorem witness_closeSequence :
    (wClose.grants (.re 0) (.request .closeChannel) = true ∧ (wClose.operand 0 0).toNat = (4 : ChanIx).val ∧
      (wClose.chan 4).status = .opened (setup .fanout 5) ∧ maskHas (setup .fanout 5).destinations 0 = true ∧
      maskHas (wClose.chan 4).takeWaiters 0 = false) ∧
    ((wClosing []).grants (.re 0) .closeStep = true ∧
      ((wClosing []).port 0).engine.close = some { channel := 4, returned := 0, discarded := 0 } ∧
      ((wClosing []).chan 4).status = .closing (setup .fanout 3) 0 ∧ ((wClosing []).chan 4).queue = []) ∧
    (((wClosing []).setChan 4 Chan.reset).grants (.re 0) .closeStep = true ∧
      (((wClosing []).setChan 4 Chan.reset).chan 4).closer ≠ some 0) ∧
    ((wClosing [9]).grants (.re 0) .closeStep = true ∧ ((wClosing [9]).chan 4).closer = some 0 ∧
      ((wClosing [9]).chan 4).queue = 9 :: [] ∧ ((wClosing [9]).buf 9).readers = [] ∧
      ((wClosing [9]).buf 9).origin = some 1 ∧ (wClosing [9]).attached 1 = true ∧
      ((wClosing [9]).port 1).charge < ((wClosing [9]).port 1).quota) ∧
    ((wClosing [9] (queued (reading base 9 2) 9 4 1)).grants (.re 0) .closeStep = true ∧
      ((wClosing [9] (queued (reading base 9 2) 9 4 1)).buf 9).readers ≠ []) ∧
    (wCloseFull.grants (.re 0) .closeStep = true ∧ (wCloseFull.port 1).quota ≤ (wCloseFull.port 1).charge ∧
      (wCloseFull.buf 9).origin = some 1 ∧ (wCloseFull.buf 9).readers = []) := by decide +kernel

/-- WaitsEnd: a claim wait that has timed out, and a take wait that is cancelled. -/
def wTimedOut : State := (waits base 0 .claim none).setClaimWait [2, 0]
def wCancelled : State :=
  (opened (waits base 0 .take (some (.count 5))) 4 (setup .fanout 3) [] 1).modEngine 0 fun e => { e with cancelMarker := true }
theorem witness_waitsEnd :
    (wTimedOut.grants (.re 0) .timeout = true ∧ 0 ∈ wTimedOut.claimWait ∧
      (∀ c, maskHas (wTimedOut.chan c).takeWaiters 0 = false)) ∧
    (wCancelled.grants (.re 0) .cancel = true ∧ 0 ∉ wCancelled.claimWait ∧ maskHas (wCancelled.chan 4).takeWaiters 0 = true ∧
      (∀ d, maskHas (wCancelled.chan d).takeWaiters 0 = true → d = 4)) := by decide +kernel

/-- LeaseExpiry: an entry on offer, for a holding that has run out, under a grace and under none. -/
def wExpiry (g : Word) (s : State) (r : LeaseRole) (h : Option Port) : State :=
  { s.modSession 0 (fun x => { x with grace := g }) with
    expiry := [({ buffer := 5, role := r }, { generation := 0, holder := h })]
    lmOffer := some { buffer := 5, role := r } }
def wOut : Option Lease := some { remaining := 0, stage := .normal }
theorem witness_leaseExpiry :
    ((wExpiry 9 (held base 5 0 wOut) .holder (some 0)).grants .lm .expiry = true ∧
      (wExpiry 9 (held base 5 0 wOut) .holder (some 0)).lmOffer = some { buffer := 5, role := .holder } ∧
      expiryLookup (wExpiry 9 (held base 5 0 wOut) .holder (some 0)).expiry { buffer := 5, role := .holder } =
        some { generation := 0, holder := some 0 } ∧
      (wExpiry 9 (held base 5 0 wOut) .holder (some 0)).roleAt { buffer := 5, role := .holder } =
        some { port := 0, lease := wOut } ∧
      (wExpiry 9 (held base 5 0 wOut) .holder (some 0)).attached 0 = true) ∧
    ((wExpiry 0 (held base 5 0 wLease) .holder (some 0)).roleAt { buffer := 5, role := .holder } =
        some { port := 0, lease := wLease }) ∧
    ((wExpiry 0 base .holder (some 0)).grants .lm .expiry = true ∧
      (wExpiry 0 base .holder (some 0)).roleAt { buffer := 5, role := .holder } = none) ∧
    ((wExpiry 0 (held base 5 0 wOut) .holder (some 0)).grants .lm .expiry = true ∧
      (wExpiry 0 (held base 5 0 wOut) .holder (some 0)).claimWait.Nodup) ∧
    ((wExpiry 0 (reading base 5 0 wOut) (.reader 0) none).grants .lm .expiry = true ∧
      (wExpiry 0 (reading base 5 0 wOut) (.reader 0) none).roleAt { buffer := 5, role := .reader 0 } =
        some { port := 0, lease := wOut } ∧
      ((wExpiry 0 (reading base 5 0 wOut) (.reader 0) none).buf 5).holder = none) := by decide +kernel

/-- LeaseExpiry: the holder waits, on the Claim Wait List behind P2 which stands at its quota, and on a channel where an entry waits for
it. -/
def wWaitOut (s : State) (w : Port → State → State) : State := (wExpiry 0 (held (w 0 s) 5 0 wOut) .holder (some 0))
def wClaimOut : State :=
  (wWaitOut base fun p s => waits s p .claim (some .noLimit)).setClaimWait [0, 2] |>.modPort 0 fun x => { x with quota := 1 }
def wTakeOut : State :=
  (wWaitOut (opened (queued base 9 4 1) 4 (setup .fanout 3) [9] 1) fun p s => waits s p .take (some .noLimit)).modPort 0 fun x =>
    { x with quota := 1 }
theorem witness_service :
    (∀ s ∈ [wClaimOut, wTakeOut], s.grants .lm .expiry = true ∧ s.lmOffer = some { buffer := 5, role := .holder } ∧
      expiryLookup s.expiry { buffer := 5, role := .holder } = some { generation := 0, holder := some 0 } ∧
      s.roleAt { buffer := 5, role := .holder } = some { port := 0, lease := wOut } ∧ s.attached 0 = true ∧
      (s.port 0).session.grace = 0 ∧ s.claimWait.Nodup) ∧
    0 ∈ wClaimOut.claimWait ∧ maskHas (wTakeOut.chan 4).takeWaiters 0 = true ∧ wTakeOut.eligible 4 0 = some 9 := by
  decide +kernel
/-- R79: the reclaim makes room, and the waiting CLAIM gets the buffer it lost, or the waiting TAKE the entry. -/
theorem test_service :
    let t := after .expiryOperation wClaimOut
    let u := after .expiryOperation wTakeOut
    (t.buf 5).heldBy 0 = true ∧ (t.port 0).engine.res.get 0 = 0x8105#16 ∧ t.claimWait = [2] ∧
      (u.buf 9).readBy 0 = true ∧ (u.port 0).engine.state = .idle ∧ (u.buf 5).state = .free := by decide +kernel

/-- MicrosecondTick, MillisecondTick and TimersRunOut: a tick with nothing due, a ms tick, a timer and a lease at their last ms. -/
def wMs : State := { waits (held base 5 1 (some { remaining := 1, stage := .normal })) 0 .claim (some (.count 1)) with
  msCounter := 999 }
theorem witness_ticks :
    (base.resetLow = false ∧ base.msCounter + 1 < 1000 ∧ base.intervalCounter + 1 < base.refreshInterval ∧
      arrayWf base.array = true ∧ (base.rows.get (arrayRow 5 7)).age < Config.retentionTicks ∧
      Config.retentionTicks ≤ (({ base with rows := base.rows.set 130 { age := 4000, epoch := 3 } } : State).rows.get
        (arrayRow 5 7)).age) ∧
    wMs.intervalCounter + 1 < wMs.refreshInterval ∧
    ((wMs.buf 5).holder.toList = [{ port := 1, lease := some { remaining := 1, stage := .normal } }] ∧
      (wMs.buf 9).holder.toList = []) ∧
    (wMs.resetLow = false ∧ 1000 ≤ wMs.msCounter + 1 ∧ (wMs.port 0).engine.state = .waiting ∧
      (wMs.port 0).engine.cancelMarker = false ∧ wMs.sessionState 0 = .active ∧
      (wMs.port 0).engine.timer = some (.count 1#16)) ∧
    ((wMs.buf 5).holder = some { port := 1, lease := some { remaining := 1, stage := .normal } } ∧
      wMs.roleAt { buffer := 5, role := .holder } = some { port := 1, lease := some { remaining := 1, stage := .normal } } ∧
      wMs.sessionState 1 = .active) := by decide +kernel

/-- RefreshEngine: an expiry with one bank at debt 8, one with none; a refresh granted and carried out. -/
def wInterval : State := { base.modRefresh 2 (fun r => { r with debt := 8 }) with intervalCounter := 14 }
def wRefreshed : State := after (.rowRefresh 2 .granted) wInterval
theorem witness_refreshEngine :
    (wInterval.resetLow = false ∧ wInterval.refreshInterval ≤ wInterval.intervalCounter + 1 ∧ 8 ≤ (wInterval.bankRefresh 2).debt ∧
      (∀ j, j ≠ 2 → (wInterval.bankRefresh j).debt < 8) ∧ wInterval.msCounter + 1 < 1000) ∧
    wInterval.bankChoice 2 = some .refresh ∧
    (wRefreshed.resetLow = false ∧ (wRefreshed.arbiter 2).current = some .refresh) := by decide +kernel

/-- MapAndUnmap: a holder in mode RW, a reader in mode RO, and an UNMAP. -/
theorem witness_mapAndUnmap :
    ((on5 (held base 5 0) .map).grants (.re 0) (.request .map) = true ∧
      (on5 (held base 5 0) .map).checkHandle ((on5 (held base 5 0) .map).operand 0 0) = none ∧
      ((on5 (held base 5 0) .map).buf 5).heldBy 0 = true) ∧
    ((on5 (reading base 5 0) .map 3).grants (.re 0) (.request .map) = true ∧
      ((on5 (reading base 5 0) .map 3).buf 5).readBy 0 = true ∧ ((on5 (reading base 5 0) .map 3).buf 5).holder = none ∧
      modeOperand ((on5 (reading base 5 0) .map 3).operand 0 1) = .ro) ∧
    (busy base 0 .unmap (ops 1)).blockReady 0 .unmap = true := by decide +kernel

/-- AccessBegins: a MAPPED and an UNMAPPED window, a stream with its prefix due, below its end and at its end, and one that writes. -/
def wStream (d : StreamDir) (ptr : Nat) (due : Bool) : State :=
  (mapped (held base 5 0) 0 5 .rw 3).modPort 0 fun x =>
    { x with stream := { x.stream with direction := d, pointer := ptr, prefixDue := due } }
theorem witness_accessBegins :
    ((wStream .read 0 false).busReady 0 = true ∧
      ((wStream .read 0 false).port 0).window .a = .mapped { handle := 0x8005, mode := .rw, length := 3 }) ∧
    (base.busReady 0 = true ∧ (base.port 0).window .a = .unmapped) ∧
    ((wStream .read 2 true).port 0).stream.prefixDue = true ∧ ((wStream .read 2 false).port 0).stream.pointer < 2 * ((3 + 1) / 2) ∧
    2 * ((3 + 1) / 2) ≤ ((wStream .read 4 false).port 0).stream.pointer ∧
    ((wStream .write 510 false).port 0).stream.direction = .write ∧ ((wStream .write 510 false).port 0).stream.pointer < 512 ∧
    512 ≤ ((wStream .write 512 false).port 0).stream.pointer := by decide +kernel

/-- StreamSettings. -/
theorem witness_streamSettings : base.busReady 0 = true := by decide +kernel

/-- ReadAtGrant, WriteAtGrant, ByteEnables and AccessCarriedOut: an access at the last word of a buffer at its grant, with its window
mapped and with it UNMAPPED, and the same access granted. -/
def wAccess (k : AccessKind) : State :=
  presents (accesses (mapped (held base 5 0) 0 5 .rw) 0 k 5 510 .waiting) 0 5 510 k.pathRequest
def wUnmappedAccess (k : AccessKind) : State := presents (accesses base 0 k 5 510 .waiting) 0 5 510 k.pathRequest
def wGranted : State := after (.windowReadGrant 0 .granted) (wUnmappedAccess (.windowRead .held))
def wWritten : State := after (.windowWriteGrant 0 .granted) (wUnmappedAccess (.windowWrite 0xAB12 bothLanes))
theorem witness_accessGrants :
    (∀ k ∈ [AccessKind.windowRead .held, .streamRead .early, .windowWrite 0xAB12 bothLanes, .streamWrite 0xAB12 { lo := true, hi := false }],
      ((wAccess k).port 0).path = some (requestAt 5 510 k.pathRequest) ∧
      (wAccess k).bankChoice (requestAt 5 510 k.pathRequest).bank = some (.port 0) ∧
      ((wAccess k).port 0).access =
        some { kind := k, window := .a, buffer := 5, offset := 510, rearmed := false, phase := .waiting } ∧
      ((wAccess k).port 0).window .a = .mapped { handle := 0x8005, mode := .rw, length := 0 } ∧
      handleIx 0x8005 = 5 ∧ (wAccess k).sessionState 0 ≠ .detached ∧ arrayWf (wAccess k).array = true ∧
      ((wUnmappedAccess k).port 0).window .a = .unmapped ∧
      (wUnmappedAccess k).bankChoice (requestAt 5 510 k.pathRequest).bank = some (.port 0)) ∧
    (wGranted.resetLow = false ∧ (wGranted.port 0).path = some (requestAt 5 510 .windowRead) ∧
      (wGranted.arbiter 1).current = some (.port 0) ∧
      (wGranted.port 0).access =
        some
          { kind := .windowRead .held, window := .a, buffer := 5, offset := 510, rearmed := false, phase := .granted 0xFFFF }) ∧
    (wWritten.resetLow = false ∧ (wWritten.port 0).path = some (requestAt 5 510 .windowWrite) ∧
      (wWritten.arbiter 1).current = some (.port 0)) := by decide +kernel

/-- BulkStarts: a FILL of the whole buffer, a COPY into the same buffer and into another, a zero fill that starts and one that does not. -/
def wZero (s : State) : State := (busy s 0 .claim (ops 0) true).modEngine 0 fun e => { e with claimed := some 0x8005 }
theorem witness_bulkStarts :
    ((on5 (held base 5 0) .fill 0 512).grants (.re 0) (.request .fill) = true ∧
      (on5 (held base 5 0) .fill 0 512).checkHandle ((on5 (held base 5 0) .fill 0 512).operand 0 0) = none ∧
      ((on5 (held base 5 0) .fill 0 512).buf 5).heldBy 0 = true ∧
      ((on5 (held base 5 0) .fill 0 512).operand 0 2).toNat = 512) ∧
    ((on5 (held base 5 0) .copy 0 0x8005 510 2).grants (.re 0) (.request .copy) = true ∧
      (on5 (held base 5 0) .copy 0 0x8005 510 2).checkHandle ((on5 (held base 5 0) .copy 0 0x8005 510 2).operand 0 2) = none ∧
      ((on5 (held base 5 0) .copy 0 0x8005 510 2).operand 0 3).toNat + 2 ≤ 512) ∧
    ((on5 (held (reading base 5 0) 6 0) .copy 0 0x8006 0 2).grants (.re 0) (.request .copy) = true ∧
      ((on5 (held (reading base 5 0) 6 0) .copy 0 0x8006 0 2).buf 5).roleOf 0 = true ∧
      ((on5 (held (reading base 5 0) 6 0) .copy 0 0x8006 0 2).buf 6).heldBy 0 = true) ∧
    ((wZero (held base 5 0)).grants (.re 0) .zeroFillStart = true ∧
      ((wZero (held base 5 0)).port 0).engine.claimed = some 0x8005 ∧ ((wZero (held base 5 0)).buf 5).heldBy 0 = true ∧
      ((wZero (held base 5 0)).buf 5).generation = handleGen 0x8005) ∧
    ((wZero base).grants (.re 0) .zeroFillStart = true ∧ ((wZero base).buf 5).heldBy 0 = false) := by decide +kernel

/-- BurstExtent: a FILL, and a DESCENDING COPY. -/
theorem witness_burstExtent :
    ((filling 5).bytesDone < (filling 5).count ∧ (filling 5).destination.offset + (filling 5).count ≤ 512) ∧
    ((copying 5 6).bytesDone < (copying 5 6).count ∧ (copying 5 6).direction = .descending ∧
      (∀ r ∈ (copying 5 6).source, r.offset + (copying 5 6).count ≤ 512 ∧ r.offset % 2 = 0) ∧
      (copying 5 6).bytesDone % 2 = 0 ∧ (copying 5 6).count % 2 = 0 ∧ (copying 5 6).destination.offset % 2 = 0) := by decide

/-- FillBurst and CopyBurst: bursts at their grants with the mark clear and set, and a burst granted. -/
def wFill (a : Bool) : State := presents (moving (held base 5 0) 0 .fill (filling 5 a)) 0 5 0 .fillBurst
def wCopyRead (a : Bool) : State :=
  presents (moving (((held (held base 5 0) 6 0).writeRun 5 0 [1, 2, 3, 4])) 0 .copy (copying 5 6 a)) 0 5 0 .copyRead
def wCopyBad : State :=
  { wCopyRead false with array := arrayInsert (wCopyRead false).array (cellKey 5 1) { byte := 0, parity := false } }
def wCopyWrite (a : Bool) : State :=
  presents (moving (held (held base 5 0) 6 0) 0 .copy (copying 5 6 a (some [1, 2, 3, 4]))) 0 6 0 .copyWrite
theorem witness_bursts :
    (∀ a, ((wFill a).port 0).path = some (requestAt 5 0 .fillBurst) ∧ (wFill a).bankChoice 1 = some (.port 0) ∧
      ((wFill a).port 0).engine.bulk = some (filling 5 a)) ∧ arrayWf (wFill false).array = true ∧
    (filling 5).burstStart (filling 5).destination + (filling 5).burstLength ≤ 512 ∧
    ((after (.fillBurst 0 .granted) (wFill false)).resetLow = false ∧
      ((after (.fillBurst 0 .granted) (wFill false)).port 0).path = some (requestAt 5 0 .fillBurst) ∧
      ((after (.fillBurst 0 .granted) (wFill false)).arbiter 1).current = some (.port 0)) ∧
    (∀ a, ((wCopyRead a).port 0).path = some (requestAt 5 0 .copyRead) ∧ (wCopyRead a).bankChoice 1 = some (.port 0) ∧
      ((wCopyRead a).port 0).engine.bulk = some (copying 5 6 a)) ∧
    (∀ c ∈ (wCopyRead false).readRun 5 0 4, c.error = false) ∧ (wCopyBad.bufByte 5 1).error = true ∧
    (∀ a, ((wCopyWrite a).port 0).path = some (requestAt 6 0 .copyWrite) ∧ (wCopyWrite a).bankChoice 2 = some (.port 0) ∧
      ((wCopyWrite a).port 0).engine.bulk = some (copying 5 6 a (some [1, 2, 3, 4]))) ∧
    [1, 2, 3, 4].length = (copying 5 6).burstLength ∧ arrayWf (wCopyWrite false).array = true := by decide +kernel

/-- EndStep: offered by the engine and by the Teardown Unit; and with a DRAINING buffer. -/
def wEnd : State :=
  moving ((held base 5 0).modBuf 5 fun r => { r with bulkCount := 1 }) 0 .fill (filling 5 false (.stopped .ok))
def wEndTeardown : State :=
  ((wEnd.modSession 0 fun x => { x with state := .resetting }).modEngine 0 fun e => { e with request := none }).modTeardown 0
    fun t => { t with phase := .roles, endOwed := true }
def wDraining : State :=
  moving ((base.setFreeList (base.freeList.erase 5)).modBuf 5 fun r => { r with bulkCount := 1 }) 0 .fill
    (filling 5 true (.stopped .aborted))
/-- A COPY between two buffers that are both DRAINING, at the end step of its port's teardown, with P2 waiting for a buffer. -/
def wBoth : State :=
  let s := (base.setFreeList ((base.freeList.erase 5).erase 6)).setClaimWait [2]
  let s := [5, 6].foldl (fun (t : State) b => t.modBuf b fun r => { r with bulkCount := 1 }) (waits s 2 .claim (some .noLimit))
  ((moving s 0 .copy { copying 5 6 true with phase := .stopped .aborted }).modSession 0 fun x =>
    { x with state := .resetting }).modTeardown 0 fun t => { t with phase := .roles, endOwed := true }
theorem witness_endStep :
    (wEnd.grants (.re 0) .endStep = true ∧ (wEnd.port 0).engine.bulk = some (filling 5 false (.stopped .ok)) ∧
      (filling 5 false (.stopped .ok)).phase = .stopped .ok ∧ (filling 5).touches = [5] ∧ (wEnd.buf 5).state = .held) ∧
    (wEndTeardown.grants (.tu 0) .endStep = true ∧ (wEndTeardown.buf 5).state = .held) ∧
    (wDraining.grants (.re 0) .endStep = true ∧ (wDraining.buf 5).state = .draining ∧ (wDraining.buf 5).bulkCount = 1) ∧
    (wBoth.grants (.tu 0) .endStep = true ∧
      (({ copying 5 6 true with phase := .stopped .aborted } : Bulk).touches.filter fun b =>
        (wBoth.buf b).state = .draining ∧ (wBoth.buf b).bulkCount = 1) = [6, 5] ∧ wBoth.claimWait = [2]) := by decide +kernel

/-- SessionRequests. -/
theorem witness_sessionRequests :
    (busy base 3 .attach (ops 0)).blockReady 3 .attach = true ∧ (busy base 0 .quiesce (ops 0)).blockReady 0 .quiesce = true ∧
    (busy (base.modSession 0 fun x => { x with state := .quiesced }) 0 .resume (ops 0)).blockReady 0 .resume = true ∧
    (busy base 0 .detach (ops 0)).blockReady 0 .detach = true ∧
    (busy base 0 .setLease (ops 1 2 3)).blockReady 0 .setLease = true := by decide +kernel

/-- PortResetInput: low already; with an ungranted access, and without one. -/
theorem witness_portResetInput :
    (wLow.port 0).prstLow = true ∧ (base.port 0).prstLow = false ∧
    (((wAccess (.windowRead .held)).port 0).prstLow = false ∧
      ((wAccess (.windowRead .held)).port 0).path = some (requestAt 5 510 .windowRead) ∧
      ((wAccess (.windowRead .held)).arbiter 1).current ≠ some (.port 0)) ∧ (base.port 0).path = none := by decide +kernel

/-- A port in a phase of its teardown. -/
def tearing (s : State) (ph : TeardownPhase) (c : Option ChanIx := none) : State :=
  ((s.modSession 0 fun x => { x with state := .resetting }).modTeardown 0 fun t => { t with phase := ph, inHand := c })
/-- R141: the UNICAST channel to the port is CLOSING under it and taken in hand, and another port's take wait on a FANOUT channel stays. -/
theorem test_fence :
    let s := tearing (opened (opened base 4 (setup .unicast 1) []) 6 (setup .fanout 3) [] 2) .fence
    let t := after (.fenceStep 0) (s.modEngine 0 fun e => { e with close := some { channel := 4, returned := 1, discarded := 0 } })
    (t.chan 4).status = .closing (setup .unicast 1) 0 ∧ (t.chan 6).takeWaiters = 2 ∧
      (t.port 0).teardown.inHand = some 4 ∧ (t.port 0).teardown.phase = .roles ∧
      (t.port 1).notes.records = [mkRecord .peerState 0 3] := by decide +kernel
/-- FenceStepCutsOff: its grant; that the waits are lawful follows from there being none. -/
theorem witness_fence_grant : (tearing base .fence).grants (.tu 0) .fence = true := by decide +kernel
theorem witness_fence_waits : (tearing base .fence).WaitsLawful := by
  refine ⟨List.nodup_nil, ?_, ?_⟩
  · intro p
    refine ⟨fun h => ?_, fun h => ?_⟩
    · exact absurd h (by revert p; decide +kernel)
    · rcases h with h | ⟨c, h⟩
      · exact absurd h (List.not_mem_nil)
      · exact absurd h (by revert p c; unfold State.TakeWaits; decide +kernel)
  · intro p c h
    exact absurd h (by revert p c; unfold State.TakeWaits; decide +kernel)

/-- RoleAndChannelSteps: a holding found; a channel in hand at its last step and one let go; a FANOUT channel found. -/
def wLastHand : State :=
  tearing (base.setChan 4 { status := .closing (setup .unicast 1) 0, queue := [], takeWaiters := 0 }) .channels (some 4)
def wFanout : State := tearing (opened base 4 (setup .fanout 3) []) .channels
theorem witness_roleAndChannelSteps :
    ((tearing (held base 5 0) .roles).grants (.tu 0) .role = true ∧ ((tearing (held base 5 0) .roles).buf 5).roleOf 0 = true ∧
      (∀ d : BufIx, d.val < 5 → ((tearing (held base 5 0) .roles).buf d).roleOf 0 = false) ∧
      ((tearing (held base 5 0) .roles).buf 5).readers = [] ∧ ((tearing (held base 5 0) .roles).buf 5).pending = 0 ∧
      0 ∉ (tearing (held base 5 0) .roles).claimWait) ∧
    (wLastHand.grants (.tu 0) .channel = true ∧ (wLastHand.port 0).teardown.inHand = some 4 ∧
      (wLastHand.chan 4).status = .closing (setup .unicast 1) 0 ∧ (wLastHand.chan 4).queue = []) ∧
    ((tearing base .channels (some 4)).grants (.tu 0) .channel = true ∧
      ((tearing base .channels (some 4)).chan 4).closer ≠ some 0) ∧
    (wFanout.grants (.tu 0) .channel = true ∧ (wFanout.port 0).teardown.inHand = none ∧
      (wFanout.chan 4).status = .opened (setup .fanout 3) ∧ maskHas (setup .fanout 3).destinations 0 = true ∧
      (∀ d : ChanIx, d.val < 4 → (wFanout.chan d).concerns 0 = false)) := by decide +kernel
/-- RoleAndChannelSteps: role steps that leave the buffer READING, QUEUED and DRAINING, one whose buffer goes to P2, and one that finds no
role; the disposal of an entry of the channel in hand, and of one that the search finds, kept, returned and discarded; a FANOUT channel
with an entry that stays and one that leaves. -/
def wRoles (s : State) : State := tearing s .roles
def wEntry (s : State) (c : Option ChanIx) : State :=
  tearing ((queued s 9 4 1).setChan 4 { status := .closing (setup .fanout 3) 0, queue := [9], takeWaiters := 0 }) .channels c
def wFanoutFull : State :=
  tearing (opened (queued (queued base 9 4 1) 8 4 3) 4 (setup .fanout 3) [8, 9]) .channels
theorem witness_roleSteps :
    (∀ s ∈ [reading (reading base 5 0) 5 2, queued (reading base 5 0) 5 4 2,
        (held base 5 0).modBuf 5 fun r => { r with bulkCount := 1 },
        (waits (held base 5 0) 2 .claim (some .noLimit)).setClaimWait [2]],
      (wRoles s).grants (.tu 0) .role = true ∧ ((wRoles s).buf 5).roleOf 0 = true ∧
        (∀ d : BufIx, d.val < 5 → ((wRoles s).buf d).roleOf 0 = false)) ∧
    ((wRoles base).grants (.tu 0) .role = true ∧ ∀ d : BufIx, ((wRoles base).buf d).roleOf 0 = false) := by decide +kernel
theorem witness_entrySteps :
    (∀ s ∈ [base, reading base 9 2, base.modPort 1 fun x => { x with charge := 64 }], ∀ c ∈ [none, some 4],
      (wEntry s c).grants (.tu 0) .channel = true ∧ ((wEntry s c).port 0).teardown.inHand = c ∧
        (∀ d : ChanIx, d.val < 4 → ((wEntry s c).chan d).concerns 0 = false) ∧
        ((wEntry s c).chan 4).status = .closing (setup .fanout 3) 0 ∧ ((wEntry s c).chan 4).queue = 9 :: [] ∧
        ((wEntry s c).buf 9).origin = some 1) ∧
    ((wEntry (reading base 9 2) none).buf 9).readers ≠ [] ∧
    ((wEntry base none).port 1).charge < ((wEntry base none).port 1).quota ∧
    (wFanoutFull.grants (.tu 0) .channel = true ∧ (wFanoutFull.chan 4).status = .opened (setup .fanout 3) ∧
      (wFanoutFull.chan 4).queue.Nodup ∧ maskErase (wFanoutFull.buf 9).pending 0 = 0 ∧
      maskErase (wFanoutFull.buf 8).pending 0 ≠ 0) := by decide +kernel
/-- R65: the entry pending for P0 alone leaves the queue and its buffer enters FREE; the other stays, pending for P1. -/
theorem test_fanout_removal :
    let t := after (.channelStep 0) wFanoutFull
    (t.chan 4).queue = [8] ∧ (t.chan 4).destinations = 2 ∧ (t.buf 8).pending = 2 ∧ (t.buf 9).state = .free ∧
      t.freeList.getLast? = some 9 := by decide +kernel

/-- RoleAndChannelSteps: the step that finds no channel left, with the end step owed and not yet due, and with none owed. -/
def wOwed (owed : Bool) : State :=
  (tearing (moving (held base 5 0) 0 .fill (filling 5)) .channels).modTeardown 0 fun t => { t with endOwed := owed }
theorem witness_channelsDone :
    ∀ owed ∈ [true, false], (wOwed owed).grants (.tu 0) .channel = true ∧ ((wOwed owed).port 0).teardown.inHand = none ∧
      (∀ c, ((wOwed owed).chan c).concerns 0 = false) ∧ ((wOwed owed).port 0).teardown.endOwed = owed := by decide +kernel
/-- R144 row 6: with an end step owed the phase becomes FINAL, and the unit offers nothing while the mover moves (R143). -/
theorem test_channelsDone :
    let t := after (.channelStep 0) (wOwed true)
    (t.port 0).teardown.phase = .final ∧ t.sessionState 0 = .resetting ∧ t.offer (.tu 0) = none ∧
      (after (.channelStep 0) (wOwed false)).sessionState 0 = .detached := by decide +kernel

/-- FinalStepDetaches: in phase FINAL, and by the channel step that goes on. -/
theorem witness_finalStep :
    ((tearing base .final).grants (.tu 0) .final = true ∧ ((tearing base .final).port 0).teardown.phase = .final) ∧
    ((tearing base .channels).grants (.tu 0) .channel = true ∧ ((tearing base .channels).port 0).teardown.phase = .channels ∧
      ((tearing base .channels).port 0).teardown.inHand = none ∧
      (∀ c, ((tearing base .channels).chan c).concerns 0 = false) ∧
      ((tearing base .channels).port 0).teardown.endOwed = false) := by decide +kernel

/-- SupervisorSettings and ClearStatus: the supervising port, with any code and value, and another. -/
def wSup (c : ReqCode) (o : Vector Word 6) (p : Port := 0) : State := { busy base p c o with supen := true, sup := 0 }
theorem witness_setParam_ready (i v : Word) :
    (wSup .setParam (ops i v)).blockReady 0 .setParam = true ∧ (wSup .setParam (ops i v)).operand 0 0 = i ∧
      (wSup .setParam (ops i v)).operand 0 1 = v := by
  refine ⟨?_, ?_, ?_⟩ <;> rfl
theorem witness_setParam :
    ((wSup .setParam (ops 1 20)).supen = true ∧ (wSup .setParam (ops 1 20)).sup = 0) ∧
    ((wSup .setParam (ops 1 20) 1).blockReady 1 .setParam = true ∧ (wSup .setParam (ops 1 20) 1).sup ≠ 1) := by
  decide +kernel
theorem witness_setQuota :
    (wSup .setQuota (ops 3 256)).grants (.re 0) (.request .setQuota) = true ∧
      ((wSup .setQuota (ops 3 256)).operand 0 1).toNat ≤ 256 ∧ (wSup .setQuota (ops 3 256)).claimWait.Nodup := by
  decide +kernel
/-- SupervisorSettings: P2 waits for a buffer at its quota, which is raised. -/
def wRaised : State :=
  { busy ((waits (base.modPort 2 fun x => { x with quota := 0 }) 2 .claim (some .noLimit)).setClaimWait [2]) 0 .setQuota
      (ops 2 1) with
    supen := true, sup := 0 }
theorem witness_raised :
    wRaised.grants (.re 0) (.request .setQuota) = true ∧ (wRaised.operand 0 0).toNat = (2 : Port).val ∧
      (wRaised.port 2).quota < (wRaised.operand 0 1).toNat ∧ (wRaised.port 2).charge ≤ (wRaised.operand 0 1).toNat ∧
      2 ∈ wRaised.claimWait ∧ wRaised.claimWait.Nodup := by decide +kernel
/-- R9, R162: it gets the head of the Free List, whose generation does not advance. -/
theorem test_raised :
    let t := after (.setQuota 0 .carriedOut) wRaised
    (t.buf 0).heldBy 2 = true ∧ (t.buf 0).generation = 0 ∧ t.claimWait = [] ∧ (t.port 2).engine.result = .ok ∧
      t.freeList.head? = some 1 := by decide +kernel
theorem witness_clearStatus :
    (wSup .clearStatus (ops 0)).blockReady 0 .clearStatus = true ∧
      (wSup .clearStatus (ops 0) 1).blockReady 1 .clearStatus = true ∧ 8 ≤ (wInterval.bankRefresh 2).debt := by
  decide +kernel

/-- RegisterAccesses: a nonempty and an empty queue. -/
theorem witness_registerAccesses :
    ((base.place 0 (mkRecord .arrival 4 1)).busReady 0 = true ∧
      ((base.place 0 (mkRecord .arrival 4 1)).port 0).notes.records = mkRecord .arrival 4 1 :: []) ∧
    (base.port 0).notes.records = [] := by decide +kernel
/-- RegisterAccesses: the reads, with a record in the latch and without, and with windows in each status. -/
theorem witness_registerReads :
    (base.resetLow = false ∧ (base.port 0).prstLow = false ∧ (base.port 0).notes.latch = none ∧
      (base.port 0).window .a = .unmapped ∧ (base.port 0).stream.pointer ≤ 512) ∧
    ((after (.note0Pop { port := 0, strobe := .held }) (base.place 0 (mkRecord .arrival 4 2))).port 0).notes.latch = some (mkRecord .arrival 4 2) ∧
    ((mapped base 0 5 .ro).port 0).window .a = .mapped { handle := 0x8005, mode := .ro, length := 0 } ∧
    (((mapped base 0 5 .ro).staleWindows 0 5).port 0).window .a = .stale { handle := 0x8005, mode := .ro, length := 0 } := by
  decide +kernel
/-- R172: a window status word and the stream settings. -/
theorem test_status_words :
    (mapped base 0 5 .ro).registerRead 0 0x01A = some 0x0505#16 ∧
      ((wStream .write 510 false).registerRead 0 0x01C) = some 0x1FE2#16 := by decide +kernel

/-- RecordsHanded: a merge, a queue with room, one with 15 records and one that stands full. -/
def wQueue (n : Nat) : NoteQueue := { records := List.replicate n (mkRecord .complete 1 1), latch := none, remaining := 0 }
theorem witness_recordsHanded :
    base.sessionState 3 = .detached ∧ base.sessionState 0 ≠ .detached ∧
    (((wQueue 3).hand (mkRecord .arrival 4 255)).records = (wQueue 3).records ++ mkRecord .arrival 4 255 :: []) ∧
    (∀ x ∈ (wQueue 14).records, x.kind ≠ .overflow) ∧ (wQueue 14).records.length < 15 ∧ (wQueue 15).records.length = 15 ∧
    (∃ x ∈ ((wQueue 15).hand (mkRecord .complete 1 1)).records, x.kind = .overflow) := by decide +kernel

/-- The frames: commands of the kinds they name, and what they answer. -/
theorem witness_frames :
    (Instr.claim 0 .carriedOut).mayChangeBytes = false ∧ (Instr.pcfgWrite 0 1 bothLanes).busPort = some 0 ∧
      Instr.claim 0 .carriedOut ≠ .resetFalling := by decide
theorem witness_frames_next (c : Instr) (h : c = .claim 0 .carriedOut ∨ c = .pcfgWrite 0 1 bothLanes) :
    exec c base = .next (after c base) := by
  rcases h with h | h <;> subst h <;> rfl

/-- The invariants, at a state with three ports attached: each law but the pool's, and a step from it. -/
theorem witness_step : step base = .next (State.settle { base with usDivider := 1 }) := by rfl
theorem witness_counters : base.CountersLawful := by constructor <;> decide +kernel
theorem witness_arrayForm : arrayWf base.array = true := by decide +kernel
theorem witness_expiry : base.ExpiryLawful := ⟨List.Pairwise.nil, fun _ h => nomatch h⟩
theorem witness_paths : base.PathsLawful := by
  intro k p h
  exact absurd h (by revert k p; decide +kernel)
theorem witness_notes : base.NotesLawful := by
  intro p
  have h : (base.port p).notes = NoteQueue.reset := by revert p; decide +kernel
  rw [h]
  constructor <;> simp [NoteQueue.reset]
theorem witness_quiet : base.DetachedQuiet := by
  unfold State.DetachedQuiet
  decide +kernel

/-- A state with only ports 0 to 2 ACTIVE, and no window, wait, close or teardown, meets the pool's laws when its records, its channels and
the request of P0 do. -/
structure Plain (s : State) : Prop where
  windows : ∀ p, (s.port p).windowA = .unmapped ∧ (s.port p).windowB = .unmapped
  teardown : ∀ p, (s.port p).teardown = Teardown.reset
  session : ∀ p, s.sessionState p = if p = 3 then .detached else .active
  engine : ∀ p, (s.port p).engine.bulk = none ∧ (s.port p).engine.close = none ∧ (s.port p).engine.claimed = none ∧
    (s.port p).engine.timer = none ∧ (s.port p).engine.cancelMarker = false ∧ (s.port p).engine.state ≠ .waiting
  request : ∀ p, if (s.port p).engine.state = .idle then
    (s.port p).engine.request = none ∧ (s.port p).engine.operands = none else p ≠ 3
  admitted : ∀ p, ∀ r ∈ (s.port p).engine.request, r.code = .post
  noWaits : s.claimWait = [] ∧ ∀ c, (s.chan c).takeWaiters = 0
  noRole : ∀ b, (s.buf b).roleOf 3 = false
  noChannel : ∀ c, maskHas (s.chan c).destinations 3 = false
  held : ∀ b, (s.buf b).holder.isSome = true → (s.buf b).readers = [] ∧ (s.buf b).pending = 0
  readers : ∀ b, ((s.buf b).readers.map Role.port).Nodup
  pending : ∀ b, ∀ e ∈ (s.buf b).readers, maskHas (s.buf b).pending e.port = false
  channel : ∀ b, (s.buf b).channel.isSome = true ↔ (s.buf b).pending ≠ 0
  counts : ∀ b, (s.buf b).length ≤ 512 ∧ (s.buf b).bulkCount = 0
  freeNodup : s.freeList.Nodup
  free : ∀ b, b ∈ s.freeList ↔ (s.buf b).state = .free
  chanClosed : ∀ c, (s.chan c).setup = none → (s.chan c).queue = []
  chanOpen : ∀ c, (s.chan c).closer = none
  chanPorts : ∀ c, ∀ u ∈ (s.chan c).setup, u.destinations ≠ 0 ∧ u.sources ≠ 0
  chanCapacity : ∀ c, ∀ u ∈ (s.chan c).setup, 1 ≤ u.capacity ∧ u.capacity ≤ 255 ∧ (s.chan c).queue.length ≤ u.capacity
  chanUnicast : ∀ c, ∀ u ∈ (s.chan c).setup, u.kind = .unicast → (maskPorts u.destinations).length = 1
  chanNodup : ∀ c, (s.chan c).queue.Nodup
  stands : ∀ b c, b ∈ (s.chan c).queue ↔ (s.buf b).channel = some c
  waitingPorts : ∀ b c, (s.buf b).channel = some c → (s.buf b).pending &&& ~~~(s.chan c).destinations = 0
  charges : s.ChargesLawful

theorem Plain.pool {s : State} (h : Plain s) : s.PoolLawful := by
  have hnowait : ∀ p c, ¬s.TakeWaits p c := by
    intro p c
    unfold State.TakeWaits
    rw [h.noWaits.2 c]
    simp [maskHas]
  have hphase : ∀ p, (s.port p).teardown.phase = .idle := fun p => by rw [h.teardown p]; rfl
  have hidle : ∀ p, (s.port p).teardown.phase.afterFence = false := fun p => by rw [hphase p]; rfl
  constructor
  · intro p
    obtain ⟨hb, hc, hcl, ht, hm, hw⟩ := h.engine p
    constructor
    · intro hi
      have := h.request p
      rw [if_pos hi] at this
      exact this
    all_goals simp_all
  · intro p
    obtain ⟨hb, hc, hcl, ht, hm, hw⟩ := h.engine p
    have hs := h.session p
    constructor
    · intro _ r hr
      have hcode := h.admitted p r hr
      have hreq := h.request p
      split at hreq
      · rw [hreq.1] at hr
        exact absurd hr (by simp)
      · rw [hs, if_neg hreq, hcode]
        rfl
    · intro hx
      simp_all
    · intro _
      exact h.windows p
    · intro hd b
      by_cases e : p = 3
      · rw [e]
        exact h.noRole b
      · simp_all
    · intro hd c
      by_cases e : p = 3
      · rw [e]
        exact h.noChannel c
      · simp_all
  · intro p
    have hp := hphase p
    have hi := hidle p
    have hs := h.session p
    constructor
    · rw [hs]
      split <;> simp_all
    all_goals simp_all [TeardownPhase.afterRoles]
  · constructor
    · rw [h.noWaits.1]
      exact List.nodup_nil
    · intro p
      have hw := (h.engine p).2.2.2.2.2
      rw [h.noWaits.1]
      simp [hw, hnowait]
    · intro p c hc
      exact absurd hc (hnowait p c)
  · intro b
    exact ⟨h.held b, h.readers b, h.pending b, h.channel b, (h.counts b).1⟩
  · exact ⟨h.freeNodup, h.free⟩
  · intro c
    refine ⟨fun hc => ⟨h.chanClosed c hc, h.noWaits.2 c⟩, fun _ => h.noWaits.2 c, ?_, h.chanPorts c, h.chanCapacity c,
      h.chanUnicast c, h.chanNodup c⟩
    rw [h.noWaits.2 c]
    simp
  · exact ⟨h.stands, h.waitingPorts⟩
  · exact h.charges
  · intro b
    rw [(h.counts b).2]
    have : s.bulkUsers b = [] := by
      unfold State.bulkUsers
      rw [List.filter_eq_nil_iff]
      intro p _
      rw [(h.engine p).1]
      simp
    rw [this]
    rfl
  · intro p w v hv
    cases w
    · rw [PortState.window, (h.windows p).1] at hv
      cases hv
    · rw [PortState.window, (h.windows p).2] at hv
      cases hv
  · intro p m hm
    rw [(h.engine p).1] at hm
    exact absurd hm (by simp)

/-- PostDisplacesOldest: P0 posts buffer 5 to a full channel of P2 under DISPLACE_OLDEST whose head buffer 8 came from P1; the same with
P1 reading the head, and with a bulk count on it. -/
def wDisplace : State :=
  on5 (held (opened (queued (queued base 8 4 4) 9 4 4) 4 (setup .unicast 4 .displaceOldest) [8, 9]) 5 0) .post 4 512 7
theorem witness_displace :
    (∀ s ∈ [wDisplace, reading wDisplace 8 1, wDisplace.modBuf 8 fun r => { r with bulkCount := 1 }],
      s.grants (.re 0) (.request .post) = true ∧ s.checkHandle (s.operand 0 0) = none ∧ (s.buf 5).heldBy 0 = true ∧
      (s.buf 5).bulkCount = 0 ∧ (s.operand 0 1).toNat = (4 : ChanIx).val ∧
      (s.chan 4).status = .opened (setup .unicast 4 .displaceOldest) ∧ (s.operand 0 2).toNat ≤ 512 ∧
      maskHas (s.chan 4).takeWaiters 0 = false ∧ (s.chan 4).queue = 8 :: [9] ∧ 5 ∉ (s.chan 4).queue ∧
      (s.chan 4).queue.Nodup ∧ (s.chan 4).queue.length = (setup .unicast 4 .displaceOldest).capacity ∧
      s.leftPending 4 ≠ 0 ∧ (s.buf 8).origin = some 1 ∧ s.attached 1 = true) ∧
    (wDisplace.buf 8).readers = [] ∧ ((reading wDisplace 8 1).buf 8).readers ≠ [] := by decide +kernel
/-- R53: the head leaves with DISPLACED to its origin and enters FREE; with a reader it stays READING and no record is placed. -/
theorem test_displace :
    let t := after (.post 0 .carriedOut) wDisplace
    let u := after (.post 0 .carriedOut) (reading wDisplace 8 1)
    (t.chan 4).queue = [9, 5] ∧ (t.buf 8).state = .free ∧
      (t.port 1).notes.records = [{ kind := .displaced, subject := 0x8008, value := 4 }] ∧
      (u.chan 4).queue = [9, 5] ∧ (u.buf 8).state = .reading ∧ (u.port 1).notes.records = [] := by decide +kernel
theorem wDisplace_charges : wDisplace.ChargesLawful := by
  unfold State.ChargesLawful
  decide +kernel
theorem wDisplace_freeList : wDisplace.freeList = ((allBuffers.erase 8).erase 9).erase 5 := by rfl
theorem wDisplace_nodup : wDisplace.freeList.Nodup := by
  rw [wDisplace_freeList]
  exact (((List.nodup_finRange 256).erase 8).erase 9).erase 5
theorem wDisplace_free (b : BufIx) : (b ≠ 5 ∧ b ≠ 9 ∧ b ≠ 8) ↔ (wDisplace.buf b).state = .free := by
  revert b
  decide +kernel
theorem wDisplace_channel (b : BufIx) : (wDisplace.buf b).channel = if b = 8 ∨ b = 9 then some 4 else none := by
  revert b
  decide +kernel
theorem wDisplace_pending (b : BufIx) : (wDisplace.buf b).pending = if b = 8 ∨ b = 9 then 4 else 0 := by
  revert b
  decide +kernel
theorem wDisplace_queue (c : ChanIx) : (wDisplace.chan c).queue = if c = 4 then [8, 9] else [] := by
  revert c
  decide +kernel
theorem witness_displace_pool : wDisplace.PoolLawful := by
  apply Plain.pool
  refine ⟨?_, ?_, ?_, ?_, ?_, ?_, ?_, ?_, ?_, ?_, ?_, ?_, ?_, ?_, wDisplace_nodup, ?_, ?_, ?_, ?_, ?_, ?_, ?_, ?_, ?_,
    wDisplace_charges⟩
  case refine_15 =>
    intro b
    rw [← wDisplace_free b, wDisplace_freeList, allBuffers,
      ((((List.nodup_finRange 256).erase 8).erase 9)).mem_erase_iff, ((List.nodup_finRange 256).erase 8).mem_erase_iff,
      (List.nodup_finRange 256).mem_erase_iff]
    simp [List.mem_finRange]
  case refine_22 =>
    intro b c
    rw [wDisplace_channel, wDisplace_queue]
    by_cases hc : c = 4 <;> by_cases hb : b = 8 ∨ b = 9 <;> simp_all [eq_comm]
  case refine_23 =>
    intro b c h
    rw [wDisplace_channel] at h
    rw [wDisplace_pending]
    split at h
    · rename_i hb
      cases h
      rw [if_pos hb]
      decide +kernel
    · cases h
  all_goals decide +kernel
/-- Every law together, at the same state. -/
theorem witness_lawful : wDisplace.Lawful := by
  refine ⟨?_, ?_, ?_, by decide +kernel, ⟨List.Pairwise.nil, fun _ h => nomatch h⟩, ?_, witness_displace_pool⟩
  · intro p
    have h : (wDisplace.port p).notes = NoteQueue.reset := by revert p; decide +kernel
    rw [h]
    constructor <;> simp [NoteQueue.reset]
  · unfold State.DetachedQuiet
    decide +kernel
  · constructor <;> decide +kernel
  · intro k p h
    exact absurd h (by revert k p; decide +kernel)
theorem witness_engines : wDisplace.WaitsLawful ∧ wDisplace.EnginesLawful :=
  ⟨witness_displace_pool.waits, witness_displace_pool.engines⟩


end Sys2Proof.Tests
end

section
/-! REQ writes that are not taken (R27): which branch of `State.reqWrite` a write goes through, and the bus writes that never begin. -/

namespace Sys2Proof.Machine

/-! ## When a bus access reaches the device -/

theorem busReady_iff {s : State} {p : Port} :
    s.busReady p = true ↔ s.resetLow = false ∧ (s.port p).prstLow = false ∧ (s.port p).access = none := by
  simp [State.busReady, and_assoc]

theorem not_busReady_of_prstLow {s : State} {p : Port} (h : (s.port p).prstLow = true) : s.busReady p = false := by
  simp [State.busReady, h]

/-! ## The branches of a REQ write that take no request -/

theorem reqWrite_not_ready {s : State} {p : Port} (h : s.busReady p = false) (w : Word) (l : Lanes) :
    s.reqWrite p w l = s := by
  simp [State.reqWrite, h]

theorem reqWrite_no_lane (s : State) (p : Port) (w : Word) : s.reqWrite p w { lo := false, hi := false } = s := by
  simp [State.reqWrite]

theorem reqWrite_one_lane {s : State} {p : Port} {l : Lanes} (h : s.busReady p = true) (hl : l.lo ≠ l.hi) (w : Word) :
    s.reqWrite p w l = s.setRefused p := by
  have hany : (!l.lo && !l.hi) = false := by
    rw [Bool.eq_not_of_ne hl]
    cases l.hi <;> rfl
  simp [State.reqWrite, h, hany, hl]

theorem reqWrite_resetting {s : State} {p : Port} {l : Lanes} (h : s.busReady p = true)
    (hs : s.sessionState p = .resetting) (hl : l.lo = true ∨ l.hi = true) (w : Word) :
    s.reqWrite p w l = s.setRefused p := by
  have hany : (!l.lo && !l.hi) = false := by
    obtain hlo | hhi := hl
    · rw [hlo]; rfl
    · rw [hhi, Bool.not_true, Bool.and_false]
  simp [State.reqWrite, h, hany, hs]

/-! ## Bus writes that do not reach the device -/

/-- A request at its REQ write is dropped; one that is carried out is no bus access. -/
theorem done_atMoment_not_ready {s t : State} {p q : Port} {c : ReqCode} {m : ReqMoment} (hp : m.onBus q = some p)
    (h : s.busReady p = false) : done (s.atMoment q c m t) = .next s.settle := by
  cases m with
  | written zero head =>
    obtain rfl : q = p := Option.some.inj hp
    exact congrArg done (reqWrite_not_ready h _ _)
  | carriedOut => exact nomatch hp

theorem done_reqWrite_not_ready {s : State} {p q : Port} {w : Word} {l : Lanes} (hp : some q = some p)
    (h : s.busReady p = false) : done (s.reqWrite q w l) = .next s.settle := by
  obtain rfl : q = p := Option.some.inj hp
  exact congrArg done (reqWrite_not_ready h _ _)

theorem done_busWrite_not_ready {s : State} {p q : Port} {body : State → State} (hp : some q = some p)
    (h : s.busReady p = false) : done (s.busWrite q body) = .next s.settle := by
  obtain rfl : q = p := Option.some.inj hp
  simp [State.busWrite, h, done]

/-- The commands that are bus writes are of three shapes: a request at its REQ write, a REQ write of any word, and a write to another
place. Each drops a write that does not reach the device (R137, R167). -/
theorem exec_busWrite_not_ready {c : Instr} {p : Port} {s : State} (hp : c.busPort = some p) (hr : c.busReads = none)
    (h : s.busReady p = false) : exec c s = .next s.settle := by
  cases c with
  | claim | release | adopt | renew | query | openChannel | post | take | channelStatus | closeChannel | setLease | map | unmap
  | fill | copy | attach | quiesce | resume | detach | setParam | setQuota | clearStatus =>
    exact done_atMoment_not_ready hp h
  | cancel | badRequest | refused => exact done_reqWrite_not_ready hp h
  | windowWrite | streamSettingsWrite | streamDataWrite | pstatWrite | pcfgWrite | registerWrite =>
    exact done_busWrite_not_ready hp h
  | windowRead | streamDataRead | note0Pop => exact nomatch hr
  | _ => exact nomatch hp

/-- Settles O11: each clause is one branch of `State.reqWrite`; the commands' meanings add the settling of the blocks alone. -/
theorem refusedReqWrites : Obligations.RefusedReqWrites := by
  unfold Obligations.RefusedReqWrites
  intro p s hreset
  refine ⟨fun c hp hr hlow => exec_busWrite_not_ready hp hr (not_busReady_of_prstLow hlow), fun hhigh hidle => ?_⟩
  have ready : s.busReady p = true := busReady_iff.mpr ⟨hreset, hhigh, hidle⟩
  refine ⟨fun hresetting => ⟨fun word lanes hl => ?_, fun zero head => ?_⟩, fun word lanes hl => ?_, fun word => ?_⟩
  · exact congrArg done (reqWrite_resetting ready hresetting hl word)
  · exact congrArg done (reqWrite_resetting ready hresetting (l := bothLanes) (.inl rfl) _)
  · exact congrArg done (reqWrite_one_lane ready hl word)
  · exact congrArg done (reqWrite_no_lane s p word)

end Sys2Proof.Machine
end

section
/-! Byte enables (R94): the beginning of a window write with no lane enabled, and the bytes of the word a granted window write changes. -/

namespace Sys2Proof.Machine

/-! ## A window write at its beginning -/

theorem busWrite_ready {s : State} {p : Port} (h : s.busReady p = true) (body : State → State) : s.busWrite p body = body s := by
  unfold State.busWrite
  rw [if_pos h]

theorem windowWrite_no_lane (s : State) (p : Port) (w : WindowSel) (o : Nat) (d : Word) :
    s.windowWrite p w o d { lo := false, hi := false } = s := rfl

/-- A window write without lanes ends as it begins, whatever its window's status. -/
theorem exec_windowWrite_no_lane {s : State} {p : Port} (h : s.busReady p = true) (w : WindowSel) (word : BitVec 8) (d : Word) :
    exec (.windowWrite p w word d { lo := false, hi := false }) s = .next s.settle :=
  congrArg done ((busWrite_ready h _).trans (windowWrite_no_lane s p w _ d))

/-! ## The bytes of a written word (R93 to R95) -/

/-- The later write of the odd byte leaves the even byte alone. -/
theorem bufByte_writeWord_even (s : State) (b : BufIx) {o : Nat} (ho : o + 1 < 512) (order : ByteOrder) (d : Word) (l : Lanes) :
    (s.writeWord b o order d l).bufByte b o =
      if evenEnabled order l then freshByte (evenByte order d) else s.bufByte b o := by
  have odd_keeps (t : State) (x : Byte) : (t.writeByte b (o + 1) x).bufByte b o = t.bufByte b o :=
    t.bufByte_writeByte_other x ho (by omega) (by omega)
  unfold State.writeWord
  split <;> split <;> simp [odd_keeps]

/-- The earlier write of the even byte leaves the odd byte alone. -/
theorem bufByte_writeWord_odd (s : State) (b : BufIx) {o : Nat} (ho : o + 1 < 512) (order : ByteOrder) (d : Word) (l : Lanes) :
    (s.writeWord b o order d l).bufByte b (o + 1) =
      if oddEnabled order l then freshByte (oddByte order d) else s.bufByte b (o + 1) := by
  have even_keeps (x : Byte) : (s.writeByte b o x).bufByte b (o + 1) = s.bufByte b (o + 1) :=
    s.bufByte_writeByte_other x (by omega) ho (by omega)
  unfold State.writeWord
  split <;> split <;> simp [even_keeps]

/-- The low lane carries the even byte in little byte order, the odd byte in big (R95). -/
theorem byte_writeWord_low (s : State) (b : BufIx) {o : Nat} (ho : o + 1 < 512) (order : ByteOrder) (d : Word) (l : Lanes) :
    ((s.writeWord b o order d l).bufByte b (if order = .little then o else o + 1)).byte =
      if l.lo then d.extractLsb' 0 8 else (s.bufByte b (if order = .little then o else o + 1)).byte := by
  cases order with
  | little => exact (congrArg Stored.byte (bufByte_writeWord_even s b ho .little d l)).trans (apply_ite ..)
  | big => exact (congrArg Stored.byte (bufByte_writeWord_odd s b ho .big d l)).trans (apply_ite ..)

/-- The high lane carries the odd byte in little byte order, the even byte in big (R95). -/
theorem byte_writeWord_high (s : State) (b : BufIx) {o : Nat} (ho : o + 1 < 512) (order : ByteOrder) (d : Word) (l : Lanes) :
    ((s.writeWord b o order d l).bufByte b (if order = .little then o + 1 else o)).byte =
      if l.hi then d.extractLsb' 8 8 else (s.bufByte b (if order = .little then o + 1 else o)).byte := by
  cases order with
  | little => exact (congrArg Stored.byte (bufByte_writeWord_odd s b ho .little d l)).trans (apply_ite ..)
  | big => exact (congrArg Stored.byte (bufByte_writeWord_even s b ho .big d l)).trans (apply_ite ..)

/-! ## A window write at its grant (R93) -/

@[simp] theorem port_occupied (s : State) (k : BankIx) (p q : Port) : (s.occupied k p).port q = s.port q := rfl

@[simp] theorem bufByte_occupied (s : State) (k : BankIx) (p : Port) (b : BufIx) (o : Nat) :
    (s.occupied k p).bufByte b o = s.bufByte b o := rfl

@[simp] theorem bufByte_acceptWrite (s : State) (p : Port) (b : BufIx) (o : Nat) :
    (s.acceptWrite p).bufByte b o = s.bufByte b o := rfl

theorem accessData_windowWrite {s : State} {p : Port} {a : BusAccess} {d : Word} {l : Lanes}
    (ha : (s.port p).access = some a) (hk : a.kind = .windowWrite d l) : s.accessData p = (d, l) := by
  obtain ⟨kind, window, buffer, offset, rearmed, phase⟩ := a
  obtain rfl : kind = .windowWrite d l := hk
  unfold State.accessData
  rw [ha]

theorem writeGranted_mapped_rw {s : State} {p : Port} {a : BusAccess} {v : View} (ha : (s.port p).access = some a)
    (hw : (s.port p).window a.window = .mapped v) (hb : handleIx v.handle = a.buffer) (hm : v.mode = .rw) (d : Word) (l : Lanes) :
    s.writeGranted p false d l = (s.writeWord a.buffer a.offset (s.port p).config.byteOrder d l).acceptWrite p := by
  simp [State.writeGranted, ha, hw, hb, hm]

/-- At its grant a window write is checked and written with the bank occupied by its port, and with the data its access carries. -/
theorem exec_windowWriteGrant_granted {s : State} {p : Port} {r : BankRequest} {a : BusAccess} {d : Word} {l : Lanes}
    (hg : s.bankGrants p r) (hr : r.what = .windowWrite) (ha : (s.port p).access = some a) (hk : a.kind = .windowWrite d l) :
    exec (.windowWriteGrant p .granted) s = done ((s.occupied r.bank p).writeGranted p false d l) := by
  have meaning : exec (.windowWriteGrant p .granted) s =
      done (s.bankGrant p .windowWrite fun t => t.writeGranted p false (s.accessData p).1 (s.accessData p).2) := rfl
  rw [meaning, ← hr, bankGrant_granted hg, accessData_windowWrite ha hk]

/-- A granted window write whose window still maps its buffer in mode RW writes the word and is accepted. -/
theorem exec_windowWriteGrant_mapped_rw {s : State} {p : Port} {r : BankRequest} {a : BusAccess} {v : View} {d : Word} {l : Lanes}
    (hg : s.bankGrants p r) (hr : r.what = .windowWrite) (ha : (s.port p).access = some a) (hk : a.kind = .windowWrite d l)
    (hw : (s.port p).window a.window = .mapped v) (hb : handleIx v.handle = a.buffer) (hm : v.mode = .rw) :
    exec (.windowWriteGrant p .granted) s =
      done (((s.occupied r.bank p).writeWord a.buffer a.offset (s.port p).config.byteOrder d l).acceptWrite p) := by
  rw [exec_windowWriteGrant_granted hg hr ha hk, writeGranted_mapped_rw (s := s.occupied r.bank p) ha hw hb hm, port_occupied]

/-- Settles O36: a write without lanes ends as it begins, and a granted one changes of its word the bytes of the enabled lanes. -/
theorem byteEnables : Obligations.ByteEnables := by
  unfold Obligations.ByteEnables
  intro p w word d s
  refine ⟨fun ready => exec_windowWrite_no_lane ready w word d, ?_⟩
  intro lo hi r a v _ hg hr ha hk _ _ hoff hw hb hm
  have ho : a.offset + 1 < 512 := by omega
  refine ⟨_, exec_windowWriteGrant_mapped_rw hg hr ha hk hw hb hm, ?_, ?_⟩
  · rw [settle_bufByte, bufByte_acceptWrite, byte_writeWord_low _ _ ho, bufByte_occupied]
  · rw [settle_bufByte, bufByte_acceptWrite, byte_writeWord_high _ _ ho, bufByte_occupied]

end Sys2Proof.Machine
end

section
/-! A record handed to a Notification Queue (R150, R151): which of the cases of `NoteQueue.hand` it goes through. -/

namespace Sys2Proof.Machine

theorem sameArrival_eq_false_iff (r x : Record) :
    r.sameArrival x = false ↔ ¬(r.kind = .arrival ∧ x.kind = .arrival ∧ x.subject = r.subject) := by
  rw [← sameArrival_iff, Bool.not_eq_true]

/-! ## An ARRIVAL that finds its channel's ARRIVAL in the queue (R151) -/

/-- A handed record changes no record but the ARRIVAL it merges with. -/
theorem map_merge_of_no_sameArrival {r : Record} {l : List Record} (h : ∀ y ∈ l, r.sameArrival y = false) :
    (l.map fun y => if r.sameArrival y then r.merge y else y) = l := by
  have hsame : ∀ y ∈ l, (if r.sameArrival y then r.merge y else y) = id y := fun y hy => by simp [h y hy]
  rw [List.map_congr_left hsame, List.map_id]

theorem hand_of_sameArrival {q : NoteQueue} {r x : Record} {front back : List Record}
    (hq : q.records = front ++ x :: back) (hx : r.sameArrival x = true)
    (hothers : ∀ y ∈ front ++ back, r.sameArrival y = false) :
    q.hand r = { q with records := front ++ r.merge x :: back } := by
  have hfound : q.records.any r.sameArrival = true :=
    List.any_eq_true.2 ⟨x, by simp [hq], hx⟩
  have hfront := map_merge_of_no_sameArrival fun y hy => hothers y (List.mem_append_left back hy)
  have hback := map_merge_of_no_sameArrival fun y hy => hothers y (List.mem_append_right front hy)
  unfold NoteQueue.hand
  rw [if_pos hfound, hq, List.map_append, List.map_cons, hfront, hback, if_pos hx]

/-! ## A record that merges with none (R150) -/

section
variable {q : NoteQueue} {r : Record}

theorem hand_behind_overflow (hm : ∀ x ∈ q.records, r.sameArrival x = false) (ho : ∃ x ∈ q.records, x.kind = .overflow) :
    q.hand r = q := by
  have hmerge : ¬q.records.any r.sameArrival = true := by simpa using hm
  have hoverflow : (q.records.any fun x => x.kind == .overflow) = true := by simpa using ho
  unfold NoteQueue.hand
  rw [if_neg hmerge, if_pos hoverflow]

/-- With no OVERFLOW in the queue, the queue's length alone decides. -/
theorem hand_of_no_overflow (hm : ∀ x ∈ q.records, r.sameArrival x = false) (ho : ∀ x ∈ q.records, x.kind ≠ .overflow) :
    q.hand r =
      if q.records.length < 15 then { q with records := q.records ++ [r] }
      else if q.records.length = 15 then { q with records := q.records ++ [mkRecord .overflow 0 0] }
      else q := by
  have hmerge : ¬q.records.any r.sameArrival = true := by simpa using hm
  have hoverflow : ¬(q.records.any fun x => x.kind == .overflow) = true := by simpa using ho
  unfold NoteQueue.hand
  rw [if_neg hmerge, if_neg hoverflow]

theorem hand_below_fifteen (hm : ∀ x ∈ q.records, r.sameArrival x = false) (ho : ∀ x ∈ q.records, x.kind ≠ .overflow)
    (hl : q.records.length < 15) : q.hand r = { q with records := q.records ++ [r] } := by
  rw [hand_of_no_overflow hm ho, if_pos hl]

theorem hand_at_fifteen (hm : ∀ x ∈ q.records, r.sameArrival x = false) (ho : ∀ x ∈ q.records, x.kind ≠ .overflow)
    (hl : q.records.length = 15) : q.hand r = { q with records := q.records ++ [mkRecord .overflow 0 0] } := by
  rw [hand_of_no_overflow hm ho, if_neg (Nat.not_lt_of_le hl.ge), if_pos hl]

end

/-- Settles O51: one lemma for each case of R150, R151's merge first. -/
theorem recordsHanded : Obligations.RecordsHanded := by
  unfold Obligations.RecordsHanded
  refine ⟨fun s p r => ⟨fun h => place_detached h r, fun h => place_attached h r⟩, fun q r => ⟨?merged, ?unmerged⟩⟩
  case merged =>
    intro front x back hq hx hothers
    exact hand_of_sameArrival hq ((sameArrival_iff r x).2 hx) fun y hy => (sameArrival_eq_false_iff r y).2 (hothers y hy)
  case unmerged =>
    intro hnone
    have hm : ∀ x ∈ q.records, r.sameArrival x = false := fun x hx => (sameArrival_eq_false_iff r x).2 (hnone x hx)
    exact ⟨hand_behind_overflow hm, hand_below_fifteen hm, hand_at_fifteen hm⟩

end Sys2Proof.Machine
end

section
/-! CLEAR_STATUS (R163): the refresh banks with their flags cleared, and an interval expiry before it and after it. -/

namespace Sys2Proof.Machine

/-! ## The refresh banks at an interval expiry and with their flags cleared (R128, R130) -/

theorem RefreshBank.expire_missed {r : RefreshBank} (h : 8 ≤ r.debt) : r.expire.missed = true := by
  unfold RefreshBank.expire
  rw [if_neg (Nat.not_lt_of_le h)]

/-- The records of missed refreshes leave the Refresh Engine alone, in any number of banks. -/
theorem foldl_placeAll_refresh (l : List BankIx) (ps : State → List Port) (r : BankIx → Record) (s : State) :
    (l.foldl (fun t k => t.placeAll (ps t) (r k)) s).refresh = s.refresh := by
  induction l generalizing s with
  | nil => rfl
  | cons k l ih => rw [List.foldl_cons, ih, placeAll_refresh]

@[simp] theorem bankRefresh_intervalExpiry (s : State) (k : BankIx) :
    s.intervalExpiry.bankRefresh k = (s.bankRefresh k).expire := by
  have engine : s.intervalExpiry.refresh = s.refresh.map RefreshBank.expire := foldl_placeAll_refresh ..
  unfold State.bankRefresh
  rw [engine, vector_get_map]

@[simp] theorem bankRefresh_clearMissed (s : State) (k : BankIx) :
    s.clearMissed.bankRefresh k = { s.bankRefresh k with missed := false } :=
  vector_get_map ..

/-! ## CLEAR_STATUS (R25, R158, R163) -/

theorem supervises_iff {s : State} {p : Port} : s.supervises p = true ↔ s.supen = true ∧ s.sup = p := by
  simp [State.supervises]

theorem Work.clearStatus_supervising {w : Work} {p : Port} (h : w.state.supervises p = true) :
    w.clearStatus p = (w.map State.clearMissed).complete p .ok res0 false := by
  simp [Work.clearStatus, h]

theorem Work.clearStatus_other {w : Work} {p : Port} (h : w.state.supervises p = false) :
    w.clearStatus p = w.refuse p .notPermitted := by
  simp [Work.clearStatus, h]

/-- Carried out when it is handed over, CLEAR_STATUS is one moment of Supervision, and no table operation. -/
theorem exec_clearStatus_ready {s : State} {p : Port} (h : s.blockReady p .clearStatus = true) :
    exec (.clearStatus p .carriedOut) s = done ((Work.start s).clearStatus p).finish :=
  congrArg done (blockRequest_ready h fun w => w.clearStatus p)

theorem admits_clearStatus_iff (x : SessionState) : admits x .clearStatus = true ↔ x = .active := by
  cases x <;> decide

/-- Settles O49: the one completion at the end of either branch, and the flags bank by bank when an expiry falls on either side. -/
theorem clearStatus : Obligations.ClearStatus := by
  unfold Obligations.ClearStatus
  refine ⟨fun p s ready => ⟨fun supervising => ?_, fun other => ?_⟩, admits_clearStatus_iff, fun s k missing => ⟨?_, ?_⟩⟩
  · rw [exec_clearStatus_ready ready, Work.clearStatus_supervising (supervises_iff.2 supervising)]
    exact congrArg done (finish_complete rfl p .ok res0 false)
  · have unsupervised : s.supervises p = false := Bool.eq_false_iff.2 (mt supervises_iff.1 other)
    rw [exec_clearStatus_ready ready, Work.clearStatus_other unsupervised]
    exact congrArg done (finish_complete rfl p .notPermitted res0 false)
  · rw [bankRefresh_intervalExpiry]
    exact RefreshBank.expire_missed (by rwa [bankRefresh_clearMissed])
  · rw [bankRefresh_clearMissed]

end Sys2Proof.Machine
end

section
/-! What a command is made of: a property that the single updates of the device keep is kept by every command. The updates of the table
operations come first, then those of the bus, the banks, the ticks and the pins. Each law of one block is then proved update by update. -/

namespace Sys2Proof.Machine

/-! ## The updates of a table operation -/

/-- The engine is BUSY with a request of the code, of which nothing has begun (R21). -/
structure Engine.Ready (e : Engine) (code : ReqCode) : Prop where
  state : e.state = .busy
  request : ∃ r, e.request = some r ∧ r.code = code
  claimed : e.claimed = none
  close : e.close = none
  bulk : e.bulk = none

/-- What can become of an engine in one update, beside the counts of a close: its premises are those under which a command makes it. -/
inductive Engine.Moves : Engine → Engine → Prop where
  | same (e : Engine) : e.Moves e
  | staged (e : Engine) (opd : Vector Word 6) : e.Moves { e with opd := opd }
  | taken (e : Engine) (w : Word) (idle : e.state = .idle) : e.Moves (e.taking w)
  | completed (e : Engine) (c : ResultCode) (r : Vector Word 4) : e.Moves (e.completed c r)
  | cancelled (e : Engine) : e.Moves e.cancelled
  | waits (e : Engine) (t : WaitTimer) (ready : e.Ready .claim ∨ e.Ready .take) :
      e.Moves { e with state := .waiting, timer := some t, cancelMarker := false }
  | claims (e : Engine) (h : Word) (zero : e.claimsZero = true) :
      e.Moves { e with state := .busy, claimed := some h, timer := none, cancelMarker := false }
  | closes (e : Engine) (g : CloseProgress) (ready : e.Ready .closeChannel) : e.Moves { e with close := some g }
  | starts (e : Engine) (m : Bulk) (busy : e.state = .busy)
      (begins : (∃ c, (c = .fill ∨ c = .copy) ∧ e.Ready c) ∨ e.claimed.isSome = true) : e.Moves { e with bulk := some m }
  | mover (e : Engine) (f : Bulk → Bulk) : e.Moves { e with bulk := e.bulk.map f }
  | ended (e : Engine) : e.Moves { e with bulk := none }
  | fenced (e : Engine) : e.Moves e.fenced

/-- A port update that leaves the access path, the queue and the session state as they are, and moves the engine as a command may. -/
structure PortState.Beside (x y : PortState) : Prop where
  path : y.path = x.path
  notes : y.notes = x.notes
  session : y.session.state = x.session.state
  engine : x.engine.Moves y.engine

/-- A property that the updates of the table operations keep: the pool's own records and lists, a port's update beside its path, queue
and session state, a record handed over, and the changes of a session state. -/
structure PoolClosed (P : State → Prop) : Prop where
  pool : ∀ {s : State} (buffers : Vector BufRec 256) (freeList : List BufIx) (claimWait : List Port) (channels : Vector Chan 16)
    (lastServed : Requester) (freeDraws : Nat), P s →
      P { s with
          buffers := buffers, freeList := freeList, claimWait := claimWait, channels := channels, lastServed := lastServed
          freeDraws := freeDraws }
  port : ∀ {s : State} (p : Port) {f : PortState → PortState}, (s.port p).Beside (f (s.port p)) → P s → P (s.modPort p f)
  place : ∀ {s : State} (p : Port) {r : Record}, r.countOk → P s → P (s.place p r)
  session : ∀ {s : State} (p : Port) {x : SessionState}, x ≠ .detached → P s → P (s.setSession p x)
  finished : ∀ {s : State} (p : Port), P s → P (s.modPort p PortState.finished)

/-- The property holds of the work's state, and an ARRIVAL among the records it owes counts 1 to 255. -/
structure Work.Sat (P : State → Prop) (w : Work) : Prop where
  state : P w.state
  owed : ∀ n ∈ w.owed, n.2.countOk

/-- A record of another kind than ARRIVAL carries no count. -/
theorem countOk_of_kind {r : Record} (h : r.kind ≠ .arrival) : r.countOk := fun hk => absurd hk h

section
variable {P : State → Prop} (hP : PoolClosed P) {s : State} {w : Work} (p : Port) (b : BufIx) (c : ChanIx)
include hP

theorem PoolClosed.modBuf (f : BufRec → BufRec) (h : P s) : P (s.modBuf b f) := hP.pool _ _ _ _ _ _ h
theorem PoolClosed.modChan (f : Chan → Chan) (h : P s) : P (s.modChan c f) := hP.pool _ _ _ _ _ _ h
theorem PoolClosed.setFreeList (l : List BufIx) (h : P s) : P (s.setFreeList l) := hP.pool _ _ _ _ _ _ h
theorem PoolClosed.setClaimWait (l : List Port) (h : P s) : P (s.setClaimWait l) := hP.pool _ _ _ _ _ _ h
theorem PoolClosed.served (r : Requester) (h : P s) : P (s.served r) := hP.pool _ _ _ _ _ _ h
theorem PoolClosed.engine {f : Engine → Engine} (hf : (s.port p).engine.Moves (f (s.port p).engine)) (h : P s) :
    P (s.modEngine p f) := hP.port p ⟨rfl, rfl, rfl, hf⟩ h
theorem PoolClosed.modBulk (f : Bulk → Bulk) (h : P s) : P (s.modBulk p f) := hP.engine p (.mover _ f) h
theorem PoolClosed.teardown (f : Teardown → Teardown) (h : P s) : P (s.modTeardown p f) := hP.port p ⟨rfl, rfl, rfl, .same _⟩ h

theorem PoolClosed.placeAll {r : Record} (hr : r.countOk) (ps : List Port) (h : P s) : P (s.placeAll ps r) :=
  placeAll_induct (fun _ q hs => hP.place q hr hs) ps s h

omit hP in
theorem Work.Sat.map (h : w.Sat P) {f : State → State} (hf : P (f w.state)) : (w.map f).Sat P := ⟨hf, h.owed⟩

omit hP in
/-- The updates of a fold keep what each of them keeps. -/
theorem foldl_sat {α : Type} {f : Work → α → Work} (hf : ∀ w x, w.Sat P → (f w x).Sat P) (l : List α) (h : w.Sat P) :
    (l.foldl f w).Sat P := by
  induction l generalizing w with
  | nil => exact h
  | cons x l ih => exact ih (hf w x h)

theorem PoolClosed.finish (h : w.Sat P) : P w.finish := by
  have step : ∀ (l : List (Port × Record)) (s : State), (∀ n ∈ l, n.2.countOk) → P s →
      P (l.foldl (fun s n => s.place n.1 n.2) s) := by
    intro l
    induction l with
    | nil => exact fun _ _ hs => hs
    | cons n l ih =>
      exact fun s hl hs => ih _ (fun m hm => hl m (List.mem_cons_of_mem _ hm)) (hP.place _ (hl n (List.mem_cons_self ..)) hs)
  exact step w.owed w.state h.owed h.state

theorem PoolClosed.complete (code : ResultCode) (r : Vector Word 4) (long : Bool) (h : w.Sat P) :
    (w.complete p code r long).Sat P := by
  refine ⟨hP.engine p (f := fun e => e.completed code r) (.completed ..) h.state, fun n hn => ?_⟩
  have owed : n ∈ w.owed ∨ n = (p, completeRecord (w.state.port p).engine code) := by
    unfold Work.complete at hn
    simp only at hn
    split at hn
    · simpa using hn
    · exact .inl hn
  obtain hold | rfl := owed
  · exact h.owed n hold
  · exact countOk_of_kind (by simp [completeRecord, mkRecord])

theorem PoolClosed.refuse (code : ResultCode) (h : w.Sat P) : (w.refuse p code).Sat P := hP.complete p code _ _ h

/-! ## Buffers that enter FREE, are handed out and taken -/

theorem PoolClosed.raiseCharge (h : P s) : P (s.raiseCharge p) := hP.port p ⟨rfl, rfl, rfl, .same _⟩ h
theorem PoolClosed.lowerCharge (h : P s) : P (s.lowerCharge p) := hP.port p ⟨rfl, rfl, rfl, .same _⟩ h
theorem PoolClosed.unmapWindows (h : P s) : P (s.unmapWindows p b) := hP.port p ⟨rfl, rfl, rfl, .same _⟩ h
theorem PoolClosed.staleWindows (h : P s) : P (s.staleWindows p b) := hP.port p ⟨rfl, rfl, rfl, .same _⟩ h
theorem PoolClosed.markAbort (h : P s) : P (s.markAbort p) := hP.modBulk p _ h
theorem PoolClosed.handOut (h : P s) : P (s.handOut p b) := hP.raiseCharge p (hP.modBuf b _ h)
theorem PoolClosed.addReader (h : P s) : P (s.addReader p b) := hP.raiseCharge p (hP.modBuf b _ h)
theorem PoolClosed.leaveQueue (h : P s) : P (s.leaveQueue c b) := hP.modBuf b _ (hP.modChan c _ h)
theorem PoolClosed.leaveTakeWait (h : P s) : P (s.leaveTakeWait c p) := hP.modChan c _ h
theorem PoolClosed.dropEntry (h : P s) : P (s.dropEntry c b) := hP.modBuf b _ (hP.leaveQueue b c h)
theorem PoolClosed.closeChan (h : P s) : P (s.closeChan c) := hP.pool _ _ _ _ _ _ h
theorem PoolClosed.returnTo (h : P s) : P (s.returnTo p b) := hP.raiseCharge p (hP.modBuf b _ h)

theorem PoolClosed.claimGiven (long : Bool) (h : w.Sat P) : (w.claimGiven p b long).Sat P := by
  unfold Work.claimGiven
  split
  · rename_i zero
    exact h.map (hP.engine p (.claims _ _ zero) h.state)
  · exact hP.complete p _ _ _ h

theorem PoolClosed.serveClaim (h : w.Sat P) : (w.serveClaim p b).Sat P :=
  hP.claimGiven p b true (h.map (hP.setClaimWait _ (hP.handOut p b h.state)))

theorem PoolClosed.enterFree (h : w.Sat P) : (w.enterFree b).Sat P := by
  have freed : (w.map fun s => s.modBuf b BufRec.freed).Sat P := h.map (hP.modBuf b _ h.state)
  unfold Work.enterFree
  simp only
  split
  · exact hP.serveClaim _ b freed
  · exact freed.map (hP.setFreeList _ freed.state)

theorem PoolClosed.claimService (h : w.Sat P) : w.claimService.Sat P := by
  refine foldl_sat (fun w q h => ?_) _ h
  split
  · split
    · exact h
    · exact hP.serveClaim q _ (h.map (hP.setFreeList _ h.state))
  · exact h

theorem PoolClosed.lastUse (h : w.Sat P) : (w.lastUse b).Sat P := by
  unfold Work.lastUse
  split
  · exact hP.enterFree b h
  · exact h

theorem PoolClosed.giveEntry (long : Bool) (h : w.Sat P) : (w.giveEntry p c b long).Sat P := by
  refine hP.complete p _ _ _ (h.map ?_)
  have reads := hP.addReader p b h.state
  simp only
  split
  · exact hP.leaveQueue b c reads
  · exact reads

theorem PoolClosed.takeService (h : w.Sat P) : (w.takeService p).Sat P := by
  unfold Work.takeService
  split
  · exact h
  · rename_i c _
    split
    · split
      · exact h
      · exact hP.giveEntry p _ c true (h.map (hP.leaveTakeWait p c h.state))
    · exact h

theorem PoolClosed.serveWaiter (h : w.Sat P) : (w.serveWaiter p).Sat P := by
  unfold Work.serveWaiter
  split
  · exact hP.claimService h
  · exact hP.takeService p h

/-! ## Reclaims and disposals -/

theorem PoolClosed.reclaimHolding (h : w.Sat P) : (w.reclaimHolding p b).Sat P := by
  refine hP.lastUse b (h.map ?_)
  have lost := hP.staleWindows p b (hP.lowerCharge p (hP.modBuf b (fun r => { r with holder := none }) h.state))
  simp only
  split
  · exact hP.markAbort p lost
  · exact lost

theorem PoolClosed.reclaimReader (h : w.Sat P) : (w.reclaimReader p b).Sat P := by
  refine hP.lastUse b (h.map ?_)
  have lost := hP.staleWindows p b
    (hP.lowerCharge p (hP.modBuf b (fun r => { r with readers := r.readers.filter fun e => e.port != p }) h.state))
  simp only
  split
  · exact hP.markAbort p lost
  · exact lost

theorem PoolClosed.tellOrigin {k : RecordKind} (hk : k ≠ .arrival) (h : P s) : P (s.tellOrigin k c b) := by
  unfold State.tellOrigin
  split
  · exact h
  · split
    · exact hP.place _ (countOk_of_kind hk) h
    · exact h

theorem PoolClosed.disposeEntry (h : w.Sat P) : (w.disposeEntry c b).Sat P := by
  have dropped : (w.map fun s => s.dropEntry c b).Sat P := h.map (hP.dropEntry b c h.state)
  unfold Work.disposeEntry
  simp only
  split
  · exact dropped
  · refine dropped.map ?_
    split
    · exact dropped.state
    · exact hP.returnTo _ b (hP.tellOrigin b c (by decide) dropped.state)
  · exact hP.lastUse b (dropped.map (hP.tellOrigin b c (by decide) dropped.state))

theorem PoolClosed.lastCloseStep (h : P s) : P (s.lastCloseStep c p) :=
  hP.placeAll (countOk_of_kind (by simp [mkRecord])) _ (hP.closeChan c h)

theorem PoolClosed.removePending (h : w.Sat P) : (w.removePending c p).Sat P := by
  have erased : ∀ (q : List BufIx) (s : State), P s →
      P (q.foldl (fun s b => s.modBuf b fun r => { r with pending := maskErase r.pending p }) s) := by
    intro q
    induction q with
    | nil => exact fun _ hs => hs
    | cons b q ih => exact fun s hs => ih _ (hP.modBuf b _ hs)
  refine foldl_sat (fun w b h => ?_) _ (h.map (erased _ _ h.state))
  split
  · exact hP.lastUse b (h.map (hP.leaveQueue b c h.state))
  · exact h

theorem PoolClosed.removeDestination (h : w.Sat P) : (w.removeDestination c p).Sat P := by
  unfold Work.removeDestination
  extract_lets w'
  have removed : w'.Sat P := hP.removePending p c (h.map (hP.modChan c _ h.state))
  split
  · exact removed.map (hP.closeChan c removed.state)
  · exact removed

/-! ## The pool requests -/

theorem PoolClosed.beginWait (ready : (s.port p).engine.Ready .claim ∨ (s.port p).engine.Ready .take) (h : P s) :
    P (s.beginWait p) := hP.engine p (.waits _ _ ready) h

theorem PoolClosed.claim (ready : (w.state.port p).engine.Ready .claim) (h : w.Sat P) : (w.claim p).Sat P := by
  unfold Work.claim
  split
  · exact hP.refuse p _ h
  · split
    · exact hP.claimGiven p _ false (h.map (hP.setFreeList _ (hP.handOut p _ h.state)))
    · split
      · exact hP.refuse p _ h
      · exact h.map (hP.setClaimWait _ (hP.beginWait p (.inl ready) h.state))

theorem PoolClosed.releaseHolding (h : w.Sat P) : (w.releaseHolding p b).Sat P := by
  unfold Work.releaseHolding
  split
  · exact hP.refuse p _ h
  · exact hP.complete p _ _ _ (hP.enterFree b
      (h.map (hP.lowerCharge p (hP.unmapWindows p b (hP.modBuf b _ h.state)))))

theorem PoolClosed.releaseReader (h : w.Sat P) : (w.releaseReader p b).Sat P :=
  hP.complete p _ _ _ (hP.lastUse b (h.map (hP.lowerCharge p (hP.unmapWindows p b (hP.modBuf b _ h.state)))))

theorem PoolClosed.release (h : w.Sat P) : (w.release p).Sat P := by
  unfold Work.release
  simp only
  split
  · exact hP.refuse p _ h
  · split
    · exact hP.releaseHolding p _ h
    · split
      · exact hP.releaseReader p _ h
      · exact hP.refuse p _ h

theorem PoolClosed.adopt (h : w.Sat P) : (w.adopt p).Sat P := by
  unfold Work.adopt
  split
  · exact hP.refuse p _ h
  · exact hP.complete p _ _ _ (h.map (hP.modBuf _ _ h.state))

theorem PoolClosed.query (h : w.Sat P) : (w.query p).Sat P := by
  unfold Work.query
  simp only
  split
  · exact hP.refuse p _ h
  · exact hP.complete p _ _ _ h

theorem PoolClosed.renew (h : w.Sat P) : (w.renew p).Sat P := by
  unfold Work.renew
  simp only
  split
  · exact hP.refuse p _ h
  · split
    · exact hP.refuse p _ h
    · exact hP.complete p _ _ _ (h.map (hP.modBuf _ _ h.state))

/-! ## The channel requests -/

theorem PoolClosed.openChannel (h : w.Sat P) : (w.openChannel p).Sat P := by
  unfold Work.openChannel
  split
  · exact hP.refuse p _ h
  · exact h
  · exact hP.complete p _ _ _
      (h.map (hP.placeAll (countOk_of_kind (by simp [mkRecord])) _ (hP.pool _ _ _ _ _ _ h.state)))

theorem PoolClosed.deliver (h : w.Sat P) : (w.deliver p c b).Sat P := by
  unfold Work.deliver
  split
  · exact hP.complete p _ _ _ (h.map (hP.leaveTakeWait p c (hP.addReader p b h.state)))
  · exact h

theorem PoolClosed.deliverAll (h : w.Sat P) : (w.deliverAll c b).Sat P :=
  foldl_sat (fun _ q h => hP.deliver q b c h) _ h

theorem PoolClosed.displace (h : w.Sat P) : (w.displace c).Sat P := by
  unfold Work.displace
  split
  · split
    · exact h
    · rename_i d _ _
      have dropped : (w.map fun s => s.dropEntry c d).Sat P := h.map (hP.dropEntry d c h.state)
      simp only
      split
      · exact dropped
      · exact hP.lastUse d (dropped.map (hP.tellOrigin d c (by decide) dropped.state))
  · exact h

theorem PoolClosed.joinQueue (head : Bool) (h : P s) : P (s.joinQueue c b head) :=
  hP.placeAll (fun _ => by simp [mkRecord]) _ (hP.modChan c _ h)

theorem PoolClosed.postFinish (head : Bool) (h : w.Sat P) : (w.postFinish c b head).Sat P := by
  unfold Work.postFinish
  split
  · exact h.map (hP.modBuf b _ h.state)
  · have displaced := hP.displace c h
    exact displaced.map (hP.joinQueue b c head displaced.state)

theorem PoolClosed.post (h : w.Sat P) : (w.post p).Sat P := by
  unfold Work.post
  split
  · exact hP.refuse p _ h
  · exact h
  · exact hP.complete p _ _ _ (hP.postFinish _ _ _ (hP.deliverAll _ _
      (h.map (hP.lowerCharge p (hP.unmapWindows p _ (hP.modBuf _ _ h.state))))))

theorem PoolClosed.take (ready : (w.state.port p).engine.Ready .take) (h : w.Sat P) : (w.take p).Sat P := by
  unfold Work.take
  split
  · exact hP.refuse p _ h
  · exact h
  · split
    · exact hP.giveEntry p _ _ false h
    · split
      · exact hP.refuse p _ h
      · exact h.map (hP.modChan _ _ (hP.beginWait p (.inr ready) h.state))

theorem PoolClosed.channelStatus (h : w.Sat P) : (w.channelStatus p).Sat P := by
  unfold Work.channelStatus
  split
  · exact hP.refuse p _ h
  · exact hP.complete p _ _ _ h

theorem PoolClosed.closeChannel (ready : (w.state.port p).engine.Ready .closeChannel) (h : w.Sat P) : (w.closeChannel p).Sat P := by
  unfold Work.closeChannel
  split
  · exact hP.refuse p _ h
  · exact h
  · exact foldl_sat (fun _ q h => hP.complete q _ _ _ h) _ 
      (h.map (hP.engine p (.closes _ _ ready) (hP.modChan _ _ h.state)))

/-- A close step, when the property outlives the count of the entry disposed of. -/
theorem PoolClosed.closeStep (h : w.Sat P)
    (counted : ∀ g b g', (w.state.port p).engine.close = some g → P (w.disposeEntry g.channel b).state →
      P ((w.disposeEntry g.channel b).state.modEngine p fun e => { e with close := some g' })) :
    (w.closeStep p).Sat P := by
  unfold Work.closeStep
  split
  · exact h
  · split
    · exact hP.complete p _ _ _ h
    · split
      · exact hP.complete p _ _ _ (h.map (hP.lastCloseStep p _ h.state))
      · rename_i g hg _ _ b _ _
        have disposed := hP.disposeEntry b g.channel h
        exact disposed.map (counted g b _ hg disposed.state)

/-! ## Waits, leases and windows -/

theorem PoolClosed.leaveWaits (h : P s) : P (s.leaveWaits p) := by
  unfold State.leaveWaits
  simp only
  split
  · exact hP.setClaimWait _ h
  · exact hP.leaveTakeWait p _ (hP.setClaimWait _ h)

theorem PoolClosed.endWait (code : ResultCode) (h : w.Sat P) : (w.endWait p code).Sat P :=
  hP.complete p _ _ _ (h.map (hP.leaveWaits p h.state))

theorem PoolClosed.setLease (h : w.Sat P) : (w.setLease p).Sat P :=
  hP.complete p _ _ _ (h.map (hP.port p ⟨rfl, rfl, rfl, .same _⟩ h.state))

theorem PoolClosed.modRole (x : Position) (f : Role → Role) (h : P s) : P (s.modRole x f) := by
  unfold State.modRole
  split <;> exact hP.modBuf _ _ h

theorem PoolClosed.warnRole (x : Position) (h : P s) : P (s.warnRole x p) :=
  hP.place p (countOk_of_kind (by simp [State.roleRecord])) (hP.modRole x _ h)

theorem PoolClosed.reclaimExpired (x : Position) (h : w.Sat P) : (w.reclaimExpired x p).Sat P := by
  have told : (w.map fun s => s.place p (s.roleRecord .reclaimed x)).Sat P :=
    h.map (hP.place p (countOk_of_kind (by simp [State.roleRecord])) h.state)
  refine hP.serveWaiter p ?_
  unfold Work.reclaimAt
  split
  · exact hP.reclaimHolding p _ told
  · exact hP.reclaimReader p _ told

/-- An expiry operation, when the property outlives the entry that it takes. -/
theorem PoolClosed.expiry (h : w.Sat P) (taken : ∀ x, w.state.lmOffer = some x → P (w.state.takeEntry x)) : w.expiry.Sat P := by
  unfold Work.expiry
  split
  · exact h
  · rename_i x hx
    have base : (w.map fun s => s.takeEntry x).Sat P := h.map (taken x hx)
    simp only
    split
    · exact base
    · split
      · exact base.map (hP.warnRole _ x base.state)
      · exact hP.reclaimExpired _ x base

omit hP in
theorem beside_mapWindow (x : PortState) (sel : WindowSel) (v : View) : x.Beside (x.mapWindow sel v) := by
  unfold PortState.mapWindow
  cases sel <;> simp only <;> split <;> exact ⟨rfl, rfl, rfl, .same _⟩

omit hP in
theorem beside_setWindow (x : PortState) (sel : WindowSel) (v : Window) : x.Beside (x.setWindow sel v) := by
  cases sel <;> exact ⟨rfl, rfl, rfl, .same _⟩

theorem PoolClosed.map' (h : w.Sat P) : (w.map' p).Sat P := by
  unfold Work.map'
  split
  · exact hP.refuse p _ h
  · exact hP.complete p _ _ _ (h.map (hP.port p (beside_mapWindow ..) h.state))

theorem PoolClosed.unmap (h : w.Sat P) : (w.unmap p).Sat P :=
  hP.complete p _ _ _ (h.map (hP.port p (beside_setWindow ..) h.state))

/-! ## Bulk operations -/

theorem PoolClosed.foldl_modBuf (f : BufRec → BufRec) (l : List BufIx) (h : P s) :
    P (l.foldl (fun t b => t.modBuf b f) s) := by
  induction l generalizing s with
  | nil => exact h
  | cons b l ih => exact ih (hP.modBuf b f h)

omit hP in
theorem foldl_modBuf_port (f : BufRec → BufRec) (l : List BufIx) (s : State) (p : Port) :
    (l.foldl (fun t b => t.modBuf b f) s).port p = s.port p := by
  induction l generalizing s with
  | nil => rfl
  | cons b l ih => exact ih _

theorem PoolClosed.startBulk (m : Bulk) (busy : (s.port p).engine.state = .busy)
    (begins : (∃ c, (c = .fill ∨ c = .copy) ∧ (s.port p).engine.Ready c) ∨ (s.port p).engine.claimed.isSome = true) (h : P s) :
    P (s.startBulk p m) := by
  refine hP.engine p (.starts _ m ?_ ?_) (hP.foldl_modBuf _ _ h)
  · rwa [foldl_modBuf_port]
  · rwa [foldl_modBuf_port]

theorem PoolClosed.fill (ready : (w.state.port p).engine.Ready .fill) (h : w.Sat P) : (w.fill p).Sat P := by
  unfold Work.fill
  split
  · exact hP.refuse p _ h
  · exact h.map (hP.startBulk p _ ready.state (.inl ⟨_, .inl rfl, ready⟩) h.state)

theorem PoolClosed.copy (ready : (w.state.port p).engine.Ready .copy) (h : w.Sat P) : (w.copy p).Sat P := by
  unfold Work.copy
  split
  · exact hP.refuse p _ h
  · exact h.map (hP.startBulk p _ ready.state (.inl ⟨_, .inr rfl, ready⟩) h.state)

theorem PoolClosed.zeroFillStart (busy : (w.state.port p).engine.state = .busy) (h : w.Sat P) : (w.zeroFillStart p).Sat P := by
  unfold Work.zeroFillStart
  split
  · exact h
  · rename_i claimed
    split
    · exact h.map (hP.startBulk p _ busy (.inr (by rw [claimed]; rfl)) h.state)
    · exact hP.complete p _ _ _ h

theorem PoolClosed.endBulk (m : Bulk) (h : w.Sat P) : (w.endBulk p m).Sat P :=
  foldl_sat (fun _ b h => hP.enterFree b h) _
    (h.map (hP.engine p (.ended _) (hP.pool _ _ _ _ _ _ (hP.foldl_modBuf (fun r => { r with bulkCount := r.bulkCount - 1 }) _ h.state))))

theorem PoolClosed.endStepEngine (h : w.Sat P) : (w.endStepEngine p).Sat P := by
  unfold Work.endStepEngine
  split
  · exact h
  · exact hP.complete p _ _ _ (hP.endBulk p _ h)

theorem PoolClosed.endStepTeardown (h : w.Sat P) : (w.endStepTeardown p).Sat P := by
  unfold Work.endStepTeardown
  split
  · exact h
  · have ended := hP.endBulk (w := w) p ‹Bulk› h
    exact ended.map (hP.teardown p _ ended.state)

/-! ## Sessions and teardowns -/

theorem PoolClosed.placePeerState (x : SessionState) (h : P s) : P (s.placePeerState p x) :=
  hP.placeAll (countOk_of_kind (by simp [mkRecord])) _ h

theorem PoolClosed.changeSession {x : SessionState} (hx : x ≠ .detached) (h : w.Sat P) : (w.changeSession p x).Sat P :=
  hP.complete p _ _ _ (h.map (hP.placePeerState p x (hP.session p hx h.state)))

theorem PoolClosed.startTeardown (h : P s) : P (s.startTeardown p) := hP.teardown p _ (hP.session p (by decide) h)

theorem PoolClosed.fence (h : P s) : P (s.fence p) := by
  have cut : P (((s.leaveWaits p).modPort p PortState.fenced).closeUnicasts p) :=
    hP.pool _ _ _ _ _ _ (hP.port p ⟨rfl, rfl, rfl, .fenced _⟩ (hP.leaveWaits p h))
  exact hP.placePeerState p _ (hP.teardown p _ cut)

theorem PoolClosed.finishTeardown (h : P s) : P (s.finishTeardown p) := hP.placePeerState p _ (hP.finished p h)

theorem PoolClosed.channelInHand (h : w.Sat P) : (w.channelInHand p c).Sat P := by
  unfold Work.channelInHand
  split
  · exact h.map (hP.teardown p _ h.state)
  · split
    · exact h.map (hP.teardown p _ (hP.lastCloseStep p c h.state))
    · exact hP.disposeEntry _ c h

theorem PoolClosed.channelFound (h : w.Sat P) : (w.channelFound p c).Sat P := by
  unfold Work.channelFound
  split
  · exact hP.channelInHand p c (h.map (hP.teardown p _ h.state))
  · have removed := hP.removeDestination p c h
    exact removed.map (hP.teardown p _ removed.state)

theorem PoolClosed.channelsDone (h : w.Sat P) : (w.channelsDone p).Sat P := by
  unfold Work.channelsDone
  split
  · exact h.map (hP.teardown p _ h.state)
  · exact h.map (hP.finishTeardown p h.state)

theorem PoolClosed.channelStep (h : w.Sat P) : (w.channelStep p).Sat P := by
  unfold Work.channelStep
  split
  · exact hP.channelInHand p _ h
  · split
    · exact hP.channelFound p _ h
    · exact hP.channelsDone p h

theorem PoolClosed.reclaimFound (h : w.Sat P) : (w.reclaimFound p b).Sat P := by
  have reclaimed : (if (w.state.buf b).heldBy p then w.reclaimHolding p b else w.reclaimReader p b).Sat P := by
    split
    · exact hP.reclaimHolding p b h
    · exact hP.reclaimReader p b h
  exact reclaimed.map (hP.teardown p _ reclaimed.state)

theorem PoolClosed.roleStep (h : w.Sat P) : (w.roleStep p).Sat P := by
  unfold Work.roleStep
  split
  · exact hP.reclaimFound p _ h
  · exact hP.channelStep p (h.map (hP.teardown p _ h.state))

/-! ## Supervision -/

theorem PoolClosed.placeParamChanged (subject value : Nat) (h : P s) : P (s.placeParamChanged subject value) :=
  hP.placeAll (countOk_of_kind (by simp [mkRecord])) _ h

/-- SET_PARAM, when the property outlives a parameter's change within its range. -/
theorem PoolClosed.setParam (h : w.Sat P)
    (changed : ∀ (x : Param) (v : Nat), x.admits v = true → P (w.state.setParameter x v)) : (w.setParam p).Sat P := by
  unfold Work.setParam
  simp only
  split
  · exact hP.refuse p _ h
  · split
    · exact hP.refuse p _ h
    · rename_i x _
      split
      · exact hP.refuse p _ h
      · rename_i hv
        exact hP.complete p _ _ _ (h.map (hP.placeParamChanged _ _ (changed x _ (by simpa using hv))))

theorem PoolClosed.setQuota (h : w.Sat P) : (w.setQuota p).Sat P := by
  unfold Work.setQuota
  split
  · exact hP.refuse p _ h
  · exact h
  · rename_i q _ _
    refine hP.complete p _ _ _ ?_
    unfold Work.changeQuota
    extract_lets raised w'
    have changed : w'.Sat P := h.map (hP.placeParamChanged _ _ (hP.port q ⟨rfl, rfl, rfl, .same _⟩ h.state))
    split
    · exact hP.serveWaiter q changed
    · exact changed

theorem PoolClosed.clearStatus (h : w.Sat P) (cleared : P w.state.clearMissed) : (w.clearStatus p).Sat P := by
  unfold Work.clearStatus
  split
  · exact hP.refuse p _ h
  · exact hP.complete p _ _ _ (h.map cleared)

end

end Sys2Proof.Machine
end

section
/-! A property that the updates of the bus, the banks, the ticks and the pins keep too is kept by every command, and by every step. -/

namespace Sys2Proof.Machine

/-! ## The updates of the commands that change no stored byte -/

/-- The bank's grant to the port has been carried out: bank and path are free (R126). -/
def State.bankFreed (s : State) (k : BankIx) (p : Port) : State :=
  (s.modArbiter k fun a => { a with current := none }).modPort p fun x => { x with path := none }

/-! ## The updates of a bus access and of a bank grant -/

/-- What a bank grant makes of a mover's record: it moves on, or it stops. -/
structure Bulk.Advances (m m' : Bulk) : Prop where
  destination : m'.destination = m.destination := by rfl
  source : m'.source = m.source := by rfl
  runs : m'.phase = .moving → m'.abort = false → m.phase = .moving ∧ m.abort = false

/-- What a bus access or a bank grant can make of an engine whose port is in a session state. -/
inductive Engine.BusMoves (st : SessionState) : Engine → Engine → Prop where
  | same (e : Engine) : BusMoves st e e
  | staged (e : Engine) (opd : Vector Word 6) : BusMoves st e { e with opd := opd }
  | taken (e : Engine) (w : Word) {c : ReqCode} (idle : e.state = .idle) (code : reqCodeOf (lowByte w) = some c)
      (admitted : admits st c = true) : BusMoves st e (e.taking w)
  | answered (e : Engine) (w : Word) (c : ResultCode) (idle : e.state = .idle) : BusMoves st e ((e.taking w).completed c res0)
  | cancelled (e : Engine) : BusMoves st e e.cancelled
  | mover (e : Engine) {f : Bulk → Bulk} (advances : ∀ m : Bulk, m.Advances (f m)) : BusMoves st e { e with bulk := e.bulk.map f }

/-- A port update that leaves alone all that the table operations work on, but for what a bus access or a bank grant does to the engine. -/
structure PortState.BusBeside (x y : PortState) : Prop where
  path : y.path = x.path := by rfl
  notes : y.notes = x.notes := by rfl
  session : y.session.state = x.session.state := by rfl
  windowA : y.windowA = x.windowA := by rfl
  windowB : y.windowB = x.windowB := by rfl
  teardown : y.teardown = x.teardown := by rfl
  charge : y.charge = x.charge := by rfl
  quota : y.quota = x.quota := by rfl
  engine : x.engine.BusMoves x.session.state y.engine

/-- A property that the updates of a port's bus accesses and bank grants keep. -/
structure BusClosed (p : Port) (P : State → Prop) : Prop where
  port : ∀ {s : State} {f : PortState → PortState}, (s.port p).BusBeside (f (s.port p)) → P s → P (s.modPort p f)
  place : ∀ {s : State} {r : Record}, r.countOk → P s → P (s.place p r)

/-- A property that every update of a command which changes no stored byte keeps. -/
structure QuietClosed (P : State → Prop) : Prop extends PoolClosed P where
  pop : ∀ {s : State} (p : Port), P s → P (s.modPort p fun x => { x with notes := x.notes.pop })
  taken : ∀ {s : State} {x : Position}, s.lmOffer = some x → P s → P (s.takeEntry x)
  param : ∀ {s : State} {x : Param} {v : Nat}, x.admits v = true → P s → P (s.setParameter x v)
  cleared : ∀ {s : State}, P s → P s.clearMissed
  occupied : ∀ {s : State} {p : Port} {r : BankRequest}, s.bankGrants p r → P s → P (s.occupied r.bank p)
  freed : ∀ {s : State} {p : Port} {r : BankRequest}, (s.port p).path = some r → (s.arbiter r.bank).current = some (.port p) →
    P s → P (s.bankFreed r.bank p)
  withdrawn : ∀ {s : State} {p : Port}, s.withdrawable p = true → P s → P (s.modPort p fun x => { x with path := none })
  refreshGranted : ∀ {s : State} (k : BankIx), P s → P (s.refreshGranted k)
  refreshDone : ∀ {s : State} (k : BankIx), P s → P (s.refreshDone k)
  straps : ∀ {s : State} (supen : Bool) (sup : Port), P s → P { s with resetLow := false, supen := supen, sup := sup }
  settle : ∀ {s : State}, P s → P s.settle

/-- A property that the writes of bytes, the ticks, the device's reset and its power keep. -/
structure LoudClosed (P : State → Prop) : Prop where
  byte : ∀ {s : State} (b : BufIx) (o : Nat) (x : Byte), P s → P (s.writeByte b o x)
  tick : ∀ {s : State}, P s → P s.microsecond
  reset : ∀ {s : State}, P s → P s.resetFalls
  power : ∀ {s : State}, P s → P s.loseArray

/-- The property outlives the count that a close step of the state makes of an entry it has disposed of. -/
def State.CountsClose (P : State → Prop) (s : State) : Prop :=
  ∀ (p : Port) (g : CloseProgress) (b : BufIx) (g' : CloseProgress), s.grants (.re p) .closeStep = true →
    (s.port p).engine.close = some g → P ((Work.start (s.served (.re p))).disposeEntry g.channel b).state →
      P (((Work.start (s.served (.re p))).disposeEntry g.channel b).state.modEngine p fun e => { e with close := some g' })

section
variable {P : State → Prop} {s t : State} {p : Port}

/-- A property that the write of a byte keeps. -/
def BytesClosed (P : State → Prop) : Prop := ∀ {s : State} (b : BufIx) (o : Nat) (x : Byte), P s → P (s.writeByte b o x)

theorem stop_advances (o : BulkOutcome) (m : Bulk) : m.Advances (m.stop o) := { runs := nofun }

theorem wrote_advances (n : Nat) (m : Bulk) : m.Advances (m.wrote n) := by
  unfold Bulk.wrote
  simp only
  split
  · exact { runs := nofun }
  · exact { runs := fun moving clear => ⟨moving, clear⟩ }

/-! ## Bytes -/

theorem BytesClosed.writeRun (hb : BytesClosed P) (b : BufIx) (o : Nat) (xs : List Byte) (h : P s) : P (s.writeRun b o xs) := by
  induction xs generalizing s o with
  | nil => exact h
  | cons x xs ih => exact ih (o + 1) (hb b o x h)

theorem BytesClosed.writeWord (hb : BytesClosed P) (b : BufIx) (o : Nat) (order : ByteOrder) (d : Word) (l : Lanes) (h : P s) :
    P (s.writeWord b o order d l) := by
  unfold State.writeWord
  extract_lets t
  have even : P t := by
    unfold t
    split
    · exact hb _ _ _ h
    · exact h
  split
  · exact hb _ _ _ even
  · exact even


section
variable (hB : BusClosed p P)
include hB

/-! ## REQ writes -/

theorem BusClosed.engine {f : Engine → Engine} (hf : (s.port p).engine.BusMoves (s.sessionState p) (f (s.port p).engine)) (h : P s) :
    P (s.modEngine p f) := hB.port { engine := hf } h

theorem BusClosed.modBulk {f : Bulk → Bulk} (hf : ∀ m : Bulk, m.Advances (f m)) (h : P s) : P (s.modBulk p f) :=
  hB.engine (.mover _ hf) h

/-- A session update beside the session state, such as that of a change flag. -/
theorem BusClosed.flag {f : Session → Session} (hf : ∀ x, (f x).state = x.state) (h : P s) : P (s.modSession p f) :=
  hB.port { session := hf _, engine := .same _ } h

theorem BusClosed.setRefused (h : P s) : P (s.setRefused p) := hB.flag (fun _ => rfl) h
theorem BusClosed.setWindowFault (h : P s) : P (s.setWindowFault p) := hB.flag (fun _ => rfl) h

/-- A request that completes at its write: the engine moves once, and its COMPLETE record is handed over. -/
theorem BusClosed.answered (w : Word) (c : ResultCode) (idle : (s.port p).engine.state = .idle) (h : P s) :
    P ((Work.start (s.modEngine p fun e => e.taking w)).complete p c res0 false).finish := by
  have moved : P ((s.modEngine p fun e => e.taking w).modEngine p fun e => e.completed c res0) := by
    have once : (s.modEngine p fun e => e.taking w).modEngine p (fun e => e.completed c res0) =
        s.modEngine p fun e => (e.taking w).completed c res0 := modPort_modPort ..
    rw [once]
    exact hB.engine (f := fun e => (e.taking w).completed c res0) (.answered _ w c idle) h
  unfold Work.complete
  simp only
  split
  · exact hB.place (countOk_of_kind (by simp [completeRecord, mkRecord])) moved
  · exact moved

theorem BusClosed.takeRequest (w : Word) (idle : (s.port p).engine.state = .idle) (h : P s) : P (s.takeRequest p w) := by
  unfold State.takeRequest
  simp only
  split
  · exact hB.answered w _ idle h
  · rename_i c code
    split
    · exact hB.answered w _ idle h
    · rename_i admitted
      split
      · exact hB.answered w _ idle h
      · exact hB.engine (f := fun e => e.taking w) (.taken _ w idle code (by simpa using admitted)) h

theorem BusClosed.reqWrite (w : Word) (l : Lanes) (h : P s) : P (s.reqWrite p w l) := by
  unfold State.reqWrite
  split
  · exact h
  · split
    · exact h
    · split
      · exact hB.setRefused h
      · split
        · rename_i idle
          exact hB.takeRequest w idle h
        · split
          · exact hB.engine (f := Engine.cancelled) (.cancelled _) h
          · exact hB.setRefused h

/-! ## Bus accesses -/

theorem BusClosed.answerRead (st : Strobe) (w : Word) (h : P s) : P (s.answerRead p st w) := by
  cases st with
  | held => exact hB.port (f := fun x => { x with dataBus := w }) { engine := .same _ } h
  | early => exact h

theorem BusClosed.busRead (st : Strobe) {body : State → State} (h : P s) (hb : P (body s)) : P (s.busRead p st body) := by
  unfold State.busRead
  split
  · exact hB.answerRead st _ h
  · split
    · exact h
    · exact hb

omit hB in
theorem busWrite_keeps {body : State → State} (h : P s) (hb : P (body s)) : P (s.busWrite p body) := by
  unfold State.busWrite
  split
  · exact hb
  · exact h

theorem BusClosed.readFault (st : Strobe) (h : P s) : P (s.readFault p st) := hB.setWindowFault (hB.answerRead st _ h)

theorem BusClosed.beginAccess (k : AccessKind) (sel : WindowSel) (b : BufIx) (o : Nat) (h : P s) :
    P (s.beginAccess p k sel b o) := hB.port { engine := .same _ } h

theorem BusClosed.windowRead (sel : WindowSel) (o : Nat) (st : Strobe) (h : P s) : P (s.windowRead p sel o st) := by
  unfold State.windowRead
  split
  · exact hB.beginAccess _ _ _ _ h
  · exact hB.readFault st h

theorem BusClosed.windowWrite (sel : WindowSel) (o : Nat) (d : Word) (l : Lanes) (h : P s) : P (s.windowWrite p sel o d l) := by
  unfold State.windowWrite
  split
  · exact h
  · split
    · exact hB.beginAccess _ _ _ _ h
    · exact hB.setWindowFault h

theorem BusClosed.streamRead (st : Strobe) (h : P s) : P (s.streamRead p st) := by
  unfold State.streamRead
  simp only
  split
  · split
    · exact hB.readFault st h
    · split
      · exact hB.port { engine := .same _ } (hB.answerRead st _ h)
      · split
        · exact hB.beginAccess _ _ _ _ h
        · exact hB.readFault st h
  · exact hB.readFault st h

theorem BusClosed.streamWrite (d : Word) (l : Lanes) (h : P s) : P (s.streamWrite p d l) := by
  unfold State.streamWrite
  simp only
  split
  · exact h
  · split
    · split
      · exact hB.setWindowFault h
      · exact hB.beginAccess _ _ _ _ h
    · exact hB.setWindowFault h

theorem BusClosed.settingsWrite (d : Word) (l : Lanes) (h : P s) : P (s.settingsWrite p d l) := by
  unfold State.settingsWrite
  split
  · exact hB.port { engine := .same _ } h
  · exact h

theorem BusClosed.writeAt (addr : BitVec 10) (d : Word) (l : Lanes) (h : P s) : P (s.writeAt p addr d l) := by
  unfold State.writeAt
  split
  · exact hB.reqWrite d l h
  · exact hB.engine (.staged ..) h
  · exact hB.flag (fun _ => rfl) h
  · exact hB.port (f := fun x => { x with config := configWrite x.config d l }) { engine := .same _ } h
  · exact hB.settingsWrite d l h
  · exact hB.streamWrite d l h
  · exact hB.windowWrite _ _ d l h
  all_goals exact h

/-! ## What a bank grant does -/

theorem BusClosed.advanceStream (a : BusAccess) (h : P s) : P (s.advanceStream p a) := by
  unfold State.advanceStream
  split
  · exact h
  · exact hB.port { engine := .same _ } h

theorem BusClosed.accessGranted (d : Word) (h : P s) : P (s.accessGranted p d) := hB.port { engine := .same _ } h
theorem BusClosed.acceptWrite (h : P s) : P (s.acceptWrite p) := hB.port { engine := .same _ } h

theorem BusClosed.readGranted (stream : Bool) (h : P s) : P (s.readGranted p stream) := by
  unfold State.readGranted
  split
  · exact h
  · split
    · split
      · rename_i a _ _ _ _ _
        extract_lets t t'
        have read : P t' := by
          unfold t'
          split
          · exact hB.advanceStream a (hB.accessGranted _ h)
          · exact hB.accessGranted _ h
        split
        · exact hB.place (countOk_of_kind (by simp)) read
        · exact read
      · exact hB.setWindowFault (hB.accessGranted _ h)
    · exact hB.setWindowFault (hB.accessGranted _ h)

theorem BusClosed.finishAccess (h : P s) : P (s.finishAccess p) := by
  refine hB.port ?_ h
  split <;> exact { engine := .same _ }

theorem BusClosed.copyReadGranted (h : P s) : P (s.copyReadGranted p) := by
  unfold State.copyReadGranted
  split
  · exact h
  · split
    · exact hB.modBulk (stop_advances _) h
    · split
      · exact h
      · simp only
        split
        · exact hB.modBulk (stop_advances _) h
        · exact hB.modBulk (fun _ => { runs := fun moving clear => ⟨moving, clear⟩ }) h

theorem BusClosed.writeGranted (hb : BytesClosed P) (stream : Bool) (d : Word) (l : Lanes) (h : P s) :
    P (s.writeGranted p stream d l) := by
  unfold State.writeGranted
  split
  · exact h
  · split
    · split
      · rename_i a _ _ _ _ _
        have written := hB.acceptWrite (hb.writeWord a.buffer a.offset (s.port p).config.byteOrder d l h)
        simp only
        split
        · exact hB.advanceStream a written
        · exact written
      · exact hB.setWindowFault (hB.acceptWrite h)
    · exact hB.setWindowFault (hB.acceptWrite h)

theorem BusClosed.fillGranted (hb : BytesClosed P) (h : P s) : P (s.fillGranted p) := by
  unfold State.fillGranted
  split
  · exact h
  · split
    · exact hB.modBulk (stop_advances _) h
    · exact hB.modBulk (fun m => wrote_advances m.burstLength m) (hb.writeRun _ _ _ h)

theorem BusClosed.copyWriteGranted (hb : BytesClosed P) (h : P s) : P (s.copyWriteGranted p) := by
  unfold State.copyWriteGranted
  split
  · exact h
  · split
    · exact hB.modBulk (stop_advances _) h
    · exact hB.modBulk (fun m => wrote_advances m.burstLength m) (hb.writeRun _ _ _ h)

end

/-- What the table operations' updates keep, the bus accesses' updates keep. -/
theorem PoolClosed.bus (hP : PoolClosed P) (p : Port) : BusClosed p P where
  place hr h := hP.place p hr h
  port {s f} beside h := by
    have once (e : Engine) : (s.modEngine p fun _ => e).modPort p (fun _ => f (s.port p)) = s.modPort p f :=
      (modPort_modPort ..).trans (modPort_congr s p rfl)
    have at' (e : Engine) : (s.modEngine p fun _ => e).port p = { s.port p with engine := e } := port_modPort_same ..
    have through {e : Engine} (first : (s.port p).engine.Moves e) (second : e.Moves (f (s.port p)).engine) : P (s.modPort p f) := by
      rw [← once e]
      refine hP.port p (f := fun _ => f (s.port p)) ?_ (hP.engine p (f := fun _ => e) first h)
      rw [at' e]
      exact ⟨beside.path, beside.notes, beside.session, second⟩
    have single (moves : (s.port p).engine.Moves (f (s.port p)).engine) : P (s.modPort p f) :=
      hP.port p ⟨beside.path, beside.notes, beside.session, moves⟩ h
    have moves := beside.engine
    generalize (f (s.port p)).engine = e' at moves single through
    cases moves with
    | same => exact single (.same _)
    | staged opd => exact single (.staged _ opd)
    | taken w idle => exact single (.taken _ w idle)
    | answered w c idle => exact through (.taken _ w idle) (.completed _ c res0)
    | cancelled => exact single (.cancelled _)
    | mover => exact single (.mover _ _)

section
variable (hP : PoolClosed P)
include hP

/-! ## Table operations, requests and REQ writes -/

theorem PoolClosed.tableOp (h : P s) {r : Requester} {op : TableOp} {body : Work → Work}
    (hb : s.grants r op = true → (Work.start (s.served r)).Sat P → (body (Work.start (s.served r))).Sat P) :
    P (s.tableOp r op body) := by
  unfold State.tableOp
  split
  · rename_i hg
    exact hP.finish (hb hg ⟨hP.served r h, by simp⟩)
  · exact h

omit hP in
/-- A granted request finds its engine BUSY with it and with nothing begun (R21). -/
theorem grants_ready {c : ReqCode} (h : s.grants (.re p) (.request c) = true) : (s.port p).engine.Ready c := by
  obtain ⟨_, _, state, bulk, claimed, close, request⟩ := grants_request h
  exact ⟨state, request, claimed, close, bulk⟩

omit hP in
/-- Beside a wait's end, an engine offers an operation only while it is BUSY (R21). -/
theorem grants_busy {op : TableOp} (h : s.grants (.re p) op = true) (hc : op ≠ .cancel) (ht : op ≠ .timeout) :
    (s.port p).engine.state = .busy := by
  have offer := (grants_offer h).2
  simp only [State.offer] at offer
  split at offer
  · cases offer
  · unfold Engine.offer at offer
    split at offer
    · cases offer
    · split at offer
      · exact absurd (Option.some.inj offer).symm hc
      · split at offer
        · exact absurd (Option.some.inj offer).symm ht
        · cases offer
    · assumption

theorem PoolClosed.blockRequest (h : P s) {c : ReqCode} {body : Work → Work}
    (hb : (Work.start s).Sat P → (body (Work.start s)).Sat P) : P (s.blockRequest p c body) := by
  unfold State.blockRequest
  split
  · exact hP.finish (hb ⟨h, by simp⟩)
  · exact h

theorem PoolClosed.atMoment {c : ReqCode} (m : ReqMoment) (h : P s) (carried : P t) : P (s.atMoment p c m t) := by
  cases m with
  | written zero head => exact (hP.bus p).reqWrite _ _ h
  | carriedOut => exact carried

theorem PoolClosed.tableRequest {c : ReqCode} (m : ReqMoment) {body : Work → Work} (h : P s)
    (hb : (s.port p).engine.Ready c → (Work.start (s.served (.re p))).Sat P → (body (Work.start (s.served (.re p)))).Sat P) :
    P (s.atMoment p c m (s.tableRequest p c body)) :=
  hP.atMoment m h (hP.tableOp h fun hg => hb (grants_ready hg))

/-! ## The steps of a teardown, closes and ends of bulk operations -/

theorem PoolClosed.runRoleStep (h : P s) : P (s.runRoleStep p) := hP.tableOp h fun _ hw => hP.roleStep p hw
theorem PoolClosed.runChannelStep (h : P s) : P (s.runChannelStep p) := hP.tableOp h fun _ hw => hP.channelStep p hw
theorem PoolClosed.runCloseStep (hC : s.CountsClose P) (h : P s) : P (s.tableOp (.re p) .closeStep fun w => w.closeStep p) :=
  hP.tableOp h fun hg hw => hP.closeStep p hw fun g b g' hc hd => hC p g b g' hg hc hd

end

theorem LoudClosed.tickWhen (hL : LoudClosed P) (due : Bool) (h : P s) : P (s.tickWhen due) := by
  unfold State.tickWhen
  split
  · exact hL.tick h
  · exact h

section
variable (hP : QuietClosed P)
include hP

theorem QuietClosed.bankGrant {what : PathRequest} {body : State → State} (h : P s) (hb : ∀ t, P t → P (body t)) :
    P (s.bankGrant p what body) := by
  unfold State.bankGrant
  split
  · exact h
  · rename_i r hr
    split
    · rename_i hg
      simp only [Bool.and_eq_true, beq_iff_eq] at hg
      exact hb _ (hP.occupied ⟨hr, hg.2⟩ h)
    · exact h

theorem QuietClosed.bankDone {what : PathRequest} {body : State → State} (h : P s) (hb : ∀ t, P t → P (body t)) :
    P (s.bankDone p what body) := by
  unfold State.bankDone
  split
  · exact h
  · rename_i r hr
    split
    · rename_i hg
      simp only [Bool.and_eq_true, beq_iff_eq] at hg
      exact hb _ (hP.freed hr hg.2 h)
    · exact h

theorem QuietClosed.atBankMoment {what : PathRequest} {m : BankMoment} {granted finished : State → State} (h : P s)
    (hg : m = .granted → ∀ t, P t → P (granted t)) (hf : ∀ t, P t → P (finished t)) :
    P (s.atBankMoment p what m granted finished) := by
  cases m with
  | granted => exact hP.bankGrant h (hg rfl)
  | carriedOut => exact hP.bankDone h hf

theorem QuietClosed.prstFalls (h : P s) : P (s.prstFalls p) := by
  have withdrawn : P (s.withdrawAccess p) := by
    unfold State.withdrawAccess
    split
    · rename_i hw
      exact hP.withdrawn hw h
    · exact h
  have ended : P (((s.withdrawAccess p).modPort p PortState.endAccess).setPrst p true) :=
    hP.port p ⟨rfl, rfl, rfl, .same _⟩ (hP.port p ⟨rfl, rfl, rfl, .same _⟩ withdrawn)
  unfold State.prstFalls
  simp only
  split
  · exact (hP.toPoolClosed.bus p).flag (fun _ => rfl) (hP.startTeardown p ended)
  · exact ended

theorem QuietClosed.finalStep (h : P s) :
    P (match (s.port p).teardown.phase with
      | .roles => if s.rolesOver p && s.channelsOver p then s.runRoleStep p else s
      | .channels => if s.channelsOver p then s.runChannelStep p else s
      | .final => s.tableOp (.tu p) .final fun w => w.map fun s => s.finishTeardown p
      | .idle | .fence => s) := by
  split
  · split
    · exact hP.runRoleStep h
    · exact h
  · split
    · exact hP.runChannelStep h
    · exact h
  · exact hP.tableOp h fun _ hw => hw.map (hP.finishTeardown p hw.state)
  · exact h
  · exact h

/-! ## Every command -/

omit hP in
theorem next_of_done {u : State} (h : done u = .next t) : t = u.settle := by
  cases h
  rfl

/-- A command keeps what its updates keep. -/
theorem QuietClosed.exec {c : Instr} (hC : s.CountsClose P) (hL : c.mayChangeBytes = true → LoudClosed P) (h : P s) (he : exec c s = .next t) : P t := by
  have ends : ∀ {u : State}, Machine.exec c s = done u → P u → P t := by
    intro u hu hPu
    rw [next_of_done (hu.symm.trans he)]
    exact hP.settle hPu
  have pool := hP.toPoolClosed
  cases c with
  | claim p m => exact ends rfl (pool.tableRequest m h fun ready hw => pool.claim p ready hw)
  | release p m => exact ends rfl (pool.tableRequest m h fun _ hw => pool.release p hw)
  | adopt p m => exact ends rfl (pool.tableRequest m h fun _ hw => pool.adopt p hw)
  | renew p m => exact ends rfl (pool.tableRequest m h fun _ hw => pool.renew p hw)
  | query p m => exact ends rfl (pool.tableRequest m h fun _ hw => pool.query p hw)
  | openChannel p m => exact ends rfl (pool.tableRequest m h fun _ hw => pool.openChannel p hw)
  | post p m => exact ends rfl (pool.tableRequest m h fun _ hw => pool.post p hw)
  | take p m => exact ends rfl (pool.tableRequest m h fun ready hw => pool.take p ready hw)
  | channelStatus p m => exact ends rfl (pool.tableRequest m h fun _ hw => pool.channelStatus p hw)
  | closeChannel p m => exact ends rfl (pool.tableRequest m h fun ready hw => pool.closeChannel p ready hw)
  | map p m => exact ends rfl (pool.tableRequest m h fun _ hw => pool.map' p hw)
  | fill p m => exact ends rfl (pool.tableRequest m h fun ready hw => pool.fill p ready hw)
  | copy p m => exact ends rfl (pool.tableRequest m h fun ready hw => pool.copy p ready hw)
  | setQuota p m => exact ends rfl (pool.tableRequest m h fun _ hw => pool.setQuota p hw)
  | setLease p m => exact ends rfl (pool.atMoment m h (pool.blockRequest h fun hw => pool.setLease p hw))
  | unmap p m => exact ends rfl (pool.atMoment m h (pool.blockRequest h fun hw => pool.unmap p hw))
  | attach p m => exact ends rfl (pool.atMoment m h (pool.blockRequest h fun hw => pool.changeSession p (by decide) hw))
  | quiesce p m => exact ends rfl (pool.atMoment m h (pool.blockRequest h fun hw => pool.changeSession p (by decide) hw))
  | resume p m => exact ends rfl (pool.atMoment m h (pool.blockRequest h fun hw => pool.changeSession p (by decide) hw))
  | detach p m => exact ends rfl (pool.atMoment m h (pool.blockRequest h fun hw => hw.map (pool.startTeardown p h)))
  | setParam p m =>
    exact ends rfl (pool.atMoment m h (pool.blockRequest h fun hw => pool.setParam p hw fun _ _ hv => hP.param hv h))
  | clearStatus p m =>
    exact ends rfl (pool.atMoment m h (pool.blockRequest h fun hw => pool.clearStatus p hw (hP.cleared h)))
  | cancel | badRequest | refused => exact ends rfl ((pool.bus _).reqWrite _ _ h)
  | cancelOperation p => exact ends rfl (pool.tableOp h fun _ hw => pool.endWait p _ hw)
  | timeoutOperation p => exact ends rfl (pool.tableOp h fun _ hw => pool.endWait p _ hw)
  | closeStep p =>
    refine ends rfl ?_
    split
    · exact h
    · exact pool.runCloseStep hC h
  | closeLastStep p =>
    refine ends rfl ?_
    split
    · exact pool.runCloseStep hC h
    · exact h
  | zeroFillStart p => exact ends rfl (pool.tableOp h fun hg hw => pool.zeroFillStart p (grants_busy (s := s) hg (by decide) (by decide)) hw)
  | endStep p =>
    refine ends rfl ?_
    split
    · exact pool.tableOp h fun _ hw => pool.endStepTeardown p hw
    · exact pool.tableOp h fun _ hw => pool.endStepEngine p hw
  | expiryOperation =>
    refine ends rfl ?_
    unfold State.tableOp
    split
    · exact pool.finish (pool.expiry ⟨pool.served .lm h, by simp⟩ fun x hx => hP.taken hx (pool.served .lm h))
    · exact h
  | fenceStep p => exact ends rfl (pool.tableOp h fun _ hw => hw.map (pool.fence p hw.state))
  | roleStep p => exact ends rfl (pool.runRoleStep h)
  | channelStep p =>
    refine ends rfl ?_
    split
    · exact pool.runRoleStep h
    · exact pool.runChannelStep h
  | finalStep p => exact ends rfl (hP.finalStep h)
  | windowRead p w word => exact ends rfl ((pool.bus _).busRead _ h ((pool.bus _).windowRead _ _ _ h))
  | streamDataRead p => exact ends rfl ((pool.bus _).busRead _ h ((pool.bus _).streamRead _ h))
  | note0Pop p => exact ends rfl ((pool.bus _).busRead _ h (hP.pop _ ((pool.bus _).answerRead _ _ h)))
  | windowWrite p w word d l => exact ends rfl (busWrite_keeps h ((pool.bus _).windowWrite _ _ d l h))
  | streamDataWrite p d l => exact ends rfl (busWrite_keeps h ((pool.bus _).streamWrite d l h))
  | streamSettingsWrite p d l => exact ends rfl (busWrite_keeps h ((pool.bus _).settingsWrite d l h))
  | pstatWrite p d l => exact ends rfl (busWrite_keeps h ((pool.bus p).flag (fun _ => rfl) h))
  | pcfgWrite p d l =>
    exact ends rfl (busWrite_keeps h
      (pool.port p (f := fun x => { x with config := configWrite x.config d l }) ⟨rfl, rfl, rfl, .same _⟩ h))
  | registerWrite p addr d l => exact ends rfl (busWrite_keeps h ((pool.bus _).writeAt addr d l h))
  | windowReadGrant p m =>
    exact ends rfl (hP.atBankMoment h (fun _ _ ht => (pool.bus _).readGranted _ ht) fun _ ht => (pool.bus _).finishAccess ht)
  | streamReadGrant p m =>
    exact ends rfl (hP.atBankMoment h (fun _ _ ht => (pool.bus _).readGranted _ ht) fun _ ht => (pool.bus _).finishAccess ht)
  | windowWriteGrant p m =>
    exact ends rfl (hP.atBankMoment h (fun hm _ ht => (pool.bus p).writeGranted (hL (by subst hm; rfl)).byte _ _ _ ht) fun _ ht => ht)
  | streamWriteGrant p m =>
    exact ends rfl (hP.atBankMoment h (fun hm _ ht => (pool.bus p).writeGranted (hL (by subst hm; rfl)).byte _ _ _ ht) fun _ ht => ht)
  | fillBurst p m =>
    exact ends rfl (hP.atBankMoment h (fun hm _ ht => (pool.bus p).fillGranted (hL (by subst hm; rfl)).byte ht) fun _ ht => ht)
  | copyBurstRead p m => exact ends rfl (hP.atBankMoment h (fun _ _ ht => (pool.bus _).copyReadGranted ht) fun _ ht => ht)
  | copyBurstWrite p m =>
    exact ends rfl (hP.atBankMoment h (fun hm _ ht => (pool.bus p).copyWriteGranted (hL (by subst hm; rfl)).byte ht) fun _ ht => ht)
  | usTick | msTick | intervalExpiry | waitTimerExpiry | leaseRunOut => exact ends rfl ((hL rfl).tickWhen _ h)
  | rowRefresh k m =>
    cases m with
    | granted => exact ends rfl (hP.refreshGranted k h)
    | carriedOut => exact ends rfl (hP.refreshDone k h)
  | prstFalling p =>
    refine ends rfl ?_
    split
    · exact h
    · exact hP.prstFalls h
  | prstRising p =>
    exact ends rfl (pool.port p (f := fun x => { x with prstLow := false }) ⟨rfl, rfl, rfl, .same _⟩ h)
  | resetFalling => exact ends rfl ((hL rfl).reset h)
  | resetRising supen sup =>
    refine ends rfl ?_
    split
    · exact hP.straps supen sup h
    · exact h
  | powerOn => exact ends rfl ((hL rfl).power h)

/-- A step keeps what its command keeps, when the property also outlives the command's leaving the queue and a CLK cycle without a tick. -/
theorem QuietClosed.step (hC : ∀ l, ({ s with pending := l } : State).CountsClose P) (hL : LoudClosed P) (taken : ∀ s l, P s → P { s with pending := l })
    (cycle : ∀ s : State, s.usDivider + 1 < s.timebaseDiv → P s → P { s with usDivider := s.usDivider + 1 })
    (h : P s) (he : step s = .next t) : P t := by
  unfold Machine.step at he
  split at he
  · exact hP.exec (hC _) (fun _ => hL) (taken _ _ h) he
  · rw [next_of_done he]
    refine hP.settle ?_
    unfold State.clkCycle
    split
    · exact h
    · split
      · exact hL.tick h
      · exact cycle s (by omega) h

end
end
end Sys2Proof.Machine
end

section
/-! The laws of single blocks that every step keeps: queues, counters, the array's list, the expiry list, and the paths with the banks. -/

namespace Sys2Proof.Machine

/-! ## The parts of a tick -/

/-- The µs tick on the interval counter keeps what the expiry of an interval, its records and a count short of it keep. -/
theorem PoolClosed.tickInterval {P : State → Prop} (hP : PoolClosed P) {s : State}
    (expired : P { s with intervalCounter := 0, refresh := s.refresh.map RefreshBank.expire })
    (counted : s.intervalCounter + 1 < s.refreshInterval → P { s with intervalCounter := s.intervalCounter + 1 }) :
    P s.tickInterval := by
  have records : ∀ (l : List BankIx) (t : State), P t →
      P (l.foldl (fun t k => t.placeAll t.attachedPorts (mkRecord .refreshMissed k.val 0)) t) := by
    intro l
    induction l with
    | nil => exact fun _ ht => ht
    | cons k l ih => exact fun t ht => ih _ (hP.placeAll (countOk_of_kind (by simp [mkRecord])) _ ht)
  unfold State.tickInterval
  split
  · exact records _ _ expired
  · exact counted (by omega)

theorem tickMs_keeps {P : State → Prop} {s : State} (ms : P ({ s with msCounter := 0 } : State).millisecond)
    (counted : s.msCounter + 1 < 1000 → P { s with msCounter := s.msCounter + 1 }) : P s.tickMs := by
  unfold State.tickMs
  split
  · exact ms
  · exact counted (by omega)

theorem millisecond_port (s : State) (p : Port) : s.millisecond.port p = (s.port p).tickTimer := vector_get_map ..

/-- A ms tick changes a WAITING engine's wait timer alone. -/
theorem tickTimer_frame (x : PortState) :
    x.tickTimer = x ∨
      x.engine.state = .waiting ∧ ∃ timer, x.tickTimer = { x with engine := { x.engine with timer := timer } } := by
  unfold PortState.tickTimer
  split
  · rename_i runs
    simp only [PortState.timerRuns, Bool.and_eq_true, beq_iff_eq] at runs
    exact .inr ⟨runs.1.1, _, rfl⟩
  · exact .inl rfl

@[simp] theorem tickTimer_notes (x : PortState) : x.tickTimer.notes = x.notes := by
  obtain h | ⟨_, _, h⟩ := tickTimer_frame x <;> rw [h]
@[simp] theorem tickTimer_session (x : PortState) : x.tickTimer.session = x.session := by
  obtain h | ⟨_, _, h⟩ := tickTimer_frame x <;> rw [h]
@[simp] theorem tickTimer_path (x : PortState) : x.tickTimer.path = x.path := by
  obtain h | ⟨_, _, h⟩ := tickTimer_frame x <;> rw [h]

theorem resetFalls_port (s : State) (p : Port) : s.resetFalls.port p = (s.port p).deviceReset := vector_get_map ..

@[simp] theorem refreshGranted_ports (s : State) (k : BankIx) : (s.refreshGranted k).ports = s.ports := by
  unfold State.refreshGranted
  split <;> rfl

@[simp] theorem refreshDone_ports (s : State) (k : BankIx) : (s.refreshDone k).ports = s.ports := by
  unfold State.refreshDone
  split <;> rfl

/-! ## Queues (R146, R148, R149) -/

/-- A law of a port's queue under its session state, which the handing over of a record, a pop and a change of the state keep. -/
structure QueueLaw (Q : SessionState → NoteQueue → Prop) : Prop where
  hand : ∀ {x n r}, x ≠ .detached → Record.countOk r → Q x n → Q x (n.hand r)
  change : ∀ {x y n}, x ≠ .detached → Q y n → Q x n
  empty : ∀ {x}, Q x NoteQueue.reset
  pop : ∀ {x n}, Q x n → Q x n.pop

/-- The law holds of every port's queue. -/
def State.QueuesObey (Q : SessionState → NoteQueue → Prop) (s : State) : Prop :=
  ∀ p, Q (s.port p).session.state (s.port p).notes

section
variable {Q : SessionState → NoteQueue → Prop} {s : State}

theorem State.QueuesObey.of_port {t : State} (h : s.QueuesObey Q)
    (ht : ∀ p, (t.port p).session.state = (s.port p).session.state ∧ (t.port p).notes = (s.port p).notes) :
    t.QueuesObey Q := by
  intro p
  rw [(ht p).1, (ht p).2]
  exact h p

theorem State.QueuesObey.modPort (h : s.QueuesObey Q) (p : Port) {f : PortState → PortState}
    (hf : Q (f (s.port p)).session.state (f (s.port p)).notes) : (s.modPort p f).QueuesObey Q := by
  intro q
  rw [port_modPort]
  split
  · rename_i e
    exact e ▸ hf
  · exact h q

variable (hQ : QueueLaw Q)
include hQ

theorem QueueLaw.poolClosed : PoolClosed (State.QueuesObey Q) where
  pool _ _ _ _ _ _ h := h
  port p _ hf h := h.modPort p (by rw [hf.session, hf.notes]; exact h p)
  place {s} p r hr h := by
    unfold State.place
    split
    · exact h
    · rename_i hs
      exact h.modPort p (hQ.hand hs hr (h p))
  session {s} p x hx h := h.modPort p (hQ.change hx (h p))
  finished p h := h.modPort p hQ.empty

theorem QueueLaw.quietClosed : QuietClosed (State.QueuesObey Q) where
  toPoolClosed := hQ.poolClosed
  pop p h := h.modPort p (hQ.pop (h p))
  taken _ h := h
  param {s} x v _ h := by
    cases x <;> exact h
  cleared h := h
  occupied _ h := h
  freed {s} p r _ _ h := State.QueuesObey.modPort (s := s.modArbiter r.bank _) h p (h p)
  withdrawn {s} p _ h := h.modPort p (h p)
  refreshGranted {s} k h := by
    unfold State.QueuesObey State.port
    rw [refreshGranted_ports]
    exact h
  refreshDone {s} k h := by
    unfold State.QueuesObey State.port
    rw [refreshDone_ports]
    exact h
  straps _ _ h := h
  settle h := h.of_port fun p => ⟨by rw [settle_port_session], settle_port_notes ..⟩

theorem QueueLaw.loudClosed : LoudClosed (State.QueuesObey Q) where
  byte _ _ _ h := h
  tick {s} h := by
    have counted : ({ s with usDivider := 0 } : State).ageRows.tickInterval.QueuesObey Q := hQ.poolClosed.tickInterval h fun _ => h
    refine tickMs_keeps ?_ fun _ => counted
    refine State.QueuesObey.of_port (s := ({ s with usDivider := 0 } : State).ageRows.tickInterval) counted fun p => ?_
    rw [millisecond_port]
    exact ⟨congrArg Session.state (tickTimer_session _), tickTimer_notes _⟩
  reset _ p := by
    rw [resetFalls_port]
    exact hQ.empty
  power h := h

theorem QueueLaw.step {t : State} (h : s.QueuesObey Q) (he : step s = .next t) : t.QueuesObey Q :=
  hQ.quietClosed.step (fun _ p _ _ _ _ _ h => h.modPort p (h p)) hQ.loudClosed (fun _ _ h => h) (fun _ _ h => h) h he

end

theorem NoteQueue.pop_lawful {q : NoteQueue} (h : q.Lawful) : q.pop.Lawful := by
  unfold NoteQueue.pop
  split
  · exact h
  · rename_i r rest hq
    have size := h.size
    have full := h.full
    have marker := h.marker
    have arrivals := h.arrivals
    have counts := h.counts
    rw [hq] at size full marker arrivals counts
    simp only [List.length_cons] at size
    refine ⟨by simpa using by omega, fun x hx => ?_, fun hl => ?_, (List.pairwise_cons.1 arrivals).2,
      fun x hx => counts x (List.mem_cons_of_mem _ hx), by simpa using by omega⟩
    · cases rest with
      | nil => cases hx
      | cons y rest => exact marker x (by simpa using Or.inr hx)
    · simp only at hl
      omega

/-- R148 and R149, whatever the session state. -/
theorem queueLaw_lawful : QueueLaw fun _ q => q.Lawful where
  hand _ hr h := hand_lawful h _ hr
  change _ h := h
  empty := NoteQueue.reset_lawful
  pop := NoteQueue.pop_lawful

/-- R146: a DETACHED port's queue is empty. -/
theorem queueLaw_quiet : QueueLaw fun x q => x = .detached → q.records = [] where
  hand hx _ _ h := absurd h hx
  change hx _ h := absurd h hx
  empty _ := rfl
  pop h hx := by
    unfold NoteQueue.pop
    simp [h hx]

/-- Settles O55: both parts are laws of single queues that the handing over of a record, a pop and a session change keep. -/
theorem stepKeepsNotes : Obligations.StepKeepsNotes := by
  unfold Obligations.StepKeepsNotes
  exact ⟨fun _ _ h he => queueLaw_lawful.step h he, fun _ _ h he => queueLaw_quiet.step h he⟩

/-! ## Counters and parameters (R127, R159, R160) -/

/-- The law of the counters speaks of these fields alone. -/
theorem State.CountersLawful.congr {s t : State} (h : s.CountersLawful) (htd : t.timebaseDiv = s.timebaseDiv)
    (hri : t.refreshInterval = s.refreshInterval) (hud : t.urgentDebt = s.urgentDebt) (hus : t.usDivider = s.usDivider)
    (hms : t.msCounter = s.msCounter) (hic : t.intervalCounter = s.intervalCounter) (hr : t.refresh = s.refresh) :
    t.CountersLawful := by
  refine ⟨htd ▸ h.timebase, hri ▸ h.interval, hud ▸ h.urgent, htd ▸ hus ▸ h.divider, hms ▸ h.ms, hri ▸ hic ▸ h.counter, ?_⟩
  unfold State.bankRefresh
  rw [hr]
  exact h.debt

theorem RefreshBank.expire_debt_le {r : RefreshBank} (h : r.debt ≤ 8) : r.expire.debt ≤ 8 := by
  unfold RefreshBank.expire
  split
  · simpa using by omega
  · exact h

theorem counters_poolClosed : PoolClosed State.CountersLawful where
  pool _ _ _ _ _ _ h := h.congr rfl rfl rfl rfl rfl rfl rfl
  port _ _ _ h := h.congr rfl rfl rfl rfl rfl rfl rfl
  place _ _ _ h := h.congr (by simp) (by simp) (by simp) (by simp) (by simp) (by simp) (by simp)
  session _ _ _ h := h.congr rfl rfl rfl rfl rfl rfl rfl
  finished _ h := h.congr rfl rfl rfl rfl rfl rfl rfl

theorem setParameter_counters {s : State} {x : Param} {v : Nat} (hv : x.admits v = true) (h : s.CountersLawful) :
    (s.setParameter x v).CountersLawful := by
  cases x with
  | timebaseDiv =>
    have range : 20 ≤ v ∧ v ≤ 133 := by simpa [Param.admits] using hv
    exact ⟨range, h.interval, h.urgent, by simpa [State.setParameter] using by omega, h.ms, h.counter, h.debt⟩
  | refreshInterval =>
    have range : 4 ≤ v ∧ v ≤ 60 := by simpa [Param.admits] using hv
    exact ⟨h.timebase, range, h.urgent, h.divider, h.ms, by simpa [State.setParameter] using by omega, h.debt⟩
  | urgentDebt =>
    have range : 1 ≤ v ∧ v ≤ 8 := by simpa [Param.admits] using hv
    exact ⟨h.timebase, h.interval, range, h.divider, h.ms, h.counter, h.debt⟩

theorem refreshDone_counters {s : State} (k : BankIx) (h : s.CountersLawful) : (s.refreshDone k).CountersLawful := by
  unfold State.refreshDone
  split
  · refine ⟨h.timebase, h.interval, h.urgent, h.divider, h.ms, h.counter, fun j => ?_⟩
    rw [bankRefresh_modArbiter, bankRefresh_modRefresh]
    split
    · exact Nat.le_trans (Nat.sub_le ..) (h.debt j)
    · exact h.debt j
  · exact h

theorem counters_quietClosed : QuietClosed State.CountersLawful where
  toPoolClosed := counters_poolClosed
  pop _ h := h.congr rfl rfl rfl rfl rfl rfl rfl
  taken _ h := h.congr rfl rfl rfl rfl rfl rfl rfl
  param hv h := setParameter_counters hv h
  cleared h := ⟨h.timebase, h.interval, h.urgent, h.divider, h.ms, h.counter, fun k => by
    rw [bankRefresh_clearMissed]
    exact h.debt k⟩
  occupied _ h := h.congr rfl rfl rfl rfl rfl rfl rfl
  freed _ _ h := h.congr rfl rfl rfl rfl rfl rfl rfl
  withdrawn _ h := h.congr rfl rfl rfl rfl rfl rfl rfl
  refreshGranted k h := by
    unfold State.refreshGranted
    split
    · exact h.congr rfl rfl rfl rfl rfl rfl rfl
    · exact h
  refreshDone k h := refreshDone_counters k h
  straps _ _ h := h.congr rfl rfl rfl rfl rfl rfl rfl
  settle h := h.congr (by simp) (by simp) (by simp) (by simp) (by simp) (by simp) (by simp)

theorem reset_counters : State.reset.CountersLawful :=
  ⟨by decide, by decide, by decide, by decide, by decide, by decide, fun k => by simp⟩

theorem microsecond_counters {s : State} (h : s.CountersLawful) : s.microsecond.CountersLawful := by
  have restarted : 0 < s.timebaseDiv := Nat.lt_of_lt_of_le (by decide) h.timebase.1
  have expires : 0 < s.refreshInterval := Nat.lt_of_lt_of_le (by decide) h.interval.1
  have counted : ({ s with usDivider := 0 } : State).ageRows.tickInterval.CountersLawful := by
    refine counters_poolClosed.tickInterval ?_ fun hc =>
      ⟨h.timebase, h.interval, h.urgent, restarted, h.ms, hc, h.debt⟩
    refine ⟨h.timebase, h.interval, h.urgent, restarted, h.ms, expires, fun k => ?_⟩
    refine (congrArg (·.debt ≤ 8) (vector_get_map s.refresh RefreshBank.expire k)).mpr ?_
    exact RefreshBank.expire_debt_le (h.debt k)
  exact tickMs_keeps
    ⟨counted.timebase, counted.interval, counted.urgent, counted.divider, by simp [State.millisecond], counted.counter, counted.debt⟩
    fun hm => ⟨counted.timebase, counted.interval, counted.urgent, counted.divider, hm, counted.counter, counted.debt⟩

theorem counters_loudClosed : LoudClosed State.CountersLawful where
  byte _ _ _ h := h.congr rfl rfl rfl rfl rfl rfl rfl
  tick h := microsecond_counters h
  reset _ := reset_counters.congr rfl rfl rfl rfl rfl rfl rfl
  power h := h.congr rfl rfl rfl rfl rfl rfl rfl

/-- Settles O56: a counter rises short of its limit or returns to 0, and a parameter changes within its range. -/
theorem stepKeepsCounters : Obligations.StepKeepsCounters := by
  unfold Obligations.StepKeepsCounters
  exact fun _ _ h he => counters_quietClosed.step (fun _ _ _ _ _ _ _ h => h.congr rfl rfl rfl rfl rfl rfl rfl)
    counters_loudClosed (fun _ _ h => h.congr rfl rfl rfl rfl rfl rfl rfl)
    (fun _ hc h => ⟨h.timebase, h.interval, h.urgent, hc, h.ms, h.counter, h.debt⟩) h he

/-! ## Fields that a command leaves as they are -/

/-- What no update changes, no property of it is lost by one. -/
theorem QuietClosed.of_field {α : Type} {f : State → α} (h : ∀ a, QuietClosed fun s => f s = a) (F : α → Prop) :
    QuietClosed fun s => F (f s) where
  pool {s} _ _ _ _ _ _ hs := ((h (f s)).pool _ _ _ _ _ _ rfl).symm ▸ hs
  port {s} p _ hg hs := ((h (f s)).port p hg rfl).symm ▸ hs
  place {s} p _ hr hs := ((h (f s)).place p hr rfl).symm ▸ hs
  session {s} p _ hx hs := ((h (f s)).session p hx rfl).symm ▸ hs
  finished {s} p hs := ((h (f s)).finished p rfl).symm ▸ hs
  pop {s} p hs := ((h (f s)).pop p rfl).symm ▸ hs
  taken {s} _ hx hs := ((h (f s)).taken hx rfl).symm ▸ hs
  param {s} _ _ hv hs := ((h (f s)).param hv rfl).symm ▸ hs
  cleared {s} hs := ((h (f s)).cleared rfl).symm ▸ hs
  occupied {s} _ _ hr hs := ((h (f s)).occupied hr rfl).symm ▸ hs
  freed {s} _ _ hp ha hs := ((h (f s)).freed hp ha rfl).symm ▸ hs
  withdrawn {s} _ hp hs := ((h (f s)).withdrawn hp rfl).symm ▸ hs
  refreshGranted {s} k hs := ((h (f s)).refreshGranted k rfl).symm ▸ hs
  refreshDone {s} k hs := ((h (f s)).refreshDone k rfl).symm ▸ hs
  straps {s} b p hs := ((h (f s)).straps b p rfl).symm ▸ hs
  settle {s} hs := ((h (f s)).settle rfl).symm ▸ hs

theorem setParameter_array (s : State) (x : Param) (v : Nat) : (s.setParameter x v).array = s.array := by cases x <;> rfl
theorem setParameter_rows (s : State) (x : Param) (v : Nat) : (s.setParameter x v).rows = s.rows := by cases x <;> rfl
theorem setParameter_pending (s : State) (x : Param) (v : Nat) : (s.setParameter x v).pending = s.pending := by cases x <;> rfl

theorem refreshGranted_frame (s : State) (k : BankIx) :
    s.refreshGranted k = { s with arbiters := (s.refreshGranted k).arbiters } := by
  unfold State.refreshGranted
  split <;> rfl

theorem refreshDone_frame (s : State) (k : BankIx) :
    s.refreshDone k =
      { s with
        arbiters := (s.refreshDone k).arbiters, refresh := (s.refreshDone k).refresh, rows := (s.refreshDone k).rows } := by
  unfold State.refreshDone
  split <;> rfl

theorem array_quietClosed (a : List (Nat × Stored)) : QuietClosed fun s => s.array = a where
  pool _ _ _ _ _ _ h := h
  port _ _ _ h := h
  place _ _ _ h := by rw [place_array, h]
  session _ _ _ h := h
  finished _ h := h
  pop _ h := h
  taken _ h := h
  param _ h := (setParameter_array ..).trans h
  cleared h := h
  occupied _ h := h
  freed _ _ h := h
  withdrawn _ h := h
  refreshGranted k h := by rw [refreshGranted_frame, h]
  refreshDone k h := by rw [refreshDone_frame, h]
  straps _ _ h := h
  settle h := by rw [settle_array, h]

theorem pending_quietClosed (l : List Instr) : QuietClosed fun s => s.pending = l where
  pool _ _ _ _ _ _ h := h
  port _ _ _ h := h
  place _ _ _ h := by rw [place_pending, h]
  session _ _ _ h := h
  finished _ h := h
  pop _ h := h
  taken _ h := h
  param _ h := (setParameter_pending ..).trans h
  cleared h := h
  occupied _ h := h
  freed _ _ h := h
  withdrawn _ h := h
  refreshGranted k h := by rw [refreshGranted_frame, h]
  refreshDone k h := by rw [refreshDone_frame, h]
  straps _ _ h := h
  settle h := by rw [settle_pending, h]

theorem pending_loudClosed (l : List Instr) : LoudClosed fun s => s.pending = l where
  byte _ _ _ h := h
  tick {s} h := by
    have counted : ({ s with usDivider := 0 } : State).ageRows.tickInterval.pending = l :=
      (pending_quietClosed l).tickInterval h fun _ => h
    exact tickMs_keeps (P := fun t => t.pending = l) counted fun _ => counted
  reset h := h
  power h := h

/-- Every command ends in the settling of the blocks, and none is refused. -/
theorem exec_next (c : Instr) (s : State) : ∃ t, exec c s = .next t := by
  cases c <;> exact ⟨_, rfl⟩

/-- Settles O3: no update of a command touches the queue of waiting commands. -/
theorem everyCommandAnswersNext : Obligations.EveryCommandAnswersNext := by
  unfold Obligations.EveryCommandAnswersNext
  intro c s
  obtain ⟨t, ht⟩ := exec_next c s
  exact ⟨t, ht, (pending_quietClosed s.pending).exec (fun _ _ _ _ _ _ h => h) (fun _ => pending_loudClosed s.pending) rfl ht⟩

/-! ## The array's list (R118) -/

/-- Behind the ageing of the rows a tick touches neither the array nor its rows. -/
theorem microsecond_array (s : State) : s.microsecond.array = ({ s with usDivider := 0 } : State).ageRows.array :=
  have counted := (array_quietClosed _).tickInterval (s := ({ s with usDivider := 0 } : State).ageRows) rfl fun _ => rfl
  tickMs_keeps (P := fun t => t.array = _) counted fun _ => counted

theorem arrayForm_loudClosed : LoudClosed fun s => arrayWf s.array = true where
  byte b o x h := State.writeByte_wf h b o x
  tick {s} h := by
    rw [microsecond_array]
    exact State.loseRows_wf (s := { s with usDivider := 0, rows := s.rows.map fun r => { r with age := r.age + 1 } }) h _
  reset _ := rfl
  power _ := rfl

/-- Settles O57: a byte written sets one key inside the array, and lost rows only drop entries. -/
theorem stepKeepsArrayForm : Obligations.StepKeepsArrayForm := by
  unfold Obligations.StepKeepsArrayForm
  exact fun _ _ h he => (QuietClosed.of_field array_quietClosed (arrayWf · = true)).step
    (fun _ _ _ _ _ _ _ h => h) arrayForm_loudClosed (fun _ _ h => h) (fun _ _ h => h) h he

/-! ## Stored bytes (R19, R121, R126, R130) -/

theorem cell_congr {s t : State} (ha : t.array = s.array) (hr : ∀ r, (t.rows.get r).epoch = (s.rows.get r).epoch) :
    t.cell = s.cell := by
  funext a
  unfold State.cell
  rw [ha, hr]

theorem restartRow_epoch (s : State) (r j : Fin 512) : ((s.restartRow r).rows.get j).epoch = (s.rows.get j).epoch := by
  unfold State.restartRow
  simp only [vector_get_set]
  split
  · rename_i e
    rw [e]
  · rfl

theorem refreshDone_cell (s : State) (k : BankIx) : (s.refreshDone k).cell = s.cell := by
  refine cell_congr (by rw [refreshDone_frame]) fun r => ?_
  unfold State.refreshDone
  split
  · exact restartRow_epoch ..
  · rfl

theorem cell_quietClosed (g : Nat → Stored) : QuietClosed fun s => s.cell = g where
  pool _ _ _ _ _ _ h := h
  port _ _ _ h := h
  place _ _ _ h := (cell_congr (place_array ..) fun _ => by rw [place_rows]).trans h
  session _ _ _ h := h
  finished _ h := h
  pop _ h := h
  taken _ h := h
  param _ h := (cell_congr (setParameter_array ..) fun _ => by rw [setParameter_rows]).trans h
  cleared h := h
  occupied _ h := h
  freed _ _ h := h
  withdrawn _ h := h
  refreshGranted k h := by rw [refreshGranted_frame]; exact h
  refreshDone k h := (refreshDone_cell ..).trans h
  straps _ _ h := h
  settle h := (funext fun a => settle_cell _ a).trans h

theorem microsecond_rows (s : State) : s.microsecond.rows = ({ s with usDivider := 0 } : State).ageRows.rows := by
  have place : PoolClosed fun t => t.rows = ({ s with usDivider := 0 } : State).ageRows.rows := {
    pool := fun _ _ _ _ _ _ h => h
    port := fun _ _ _ h => h
    place := fun _ _ _ h => (place_rows ..).trans h
    session := fun _ _ _ h => h
    finished := fun _ h => h }
  have counted := place.tickInterval (s := ({ s with usDivider := 0 } : State).ageRows) rfl fun _ => rfl
  exact tickMs_keeps (P := fun t => t.rows = _) counted fun _ => counted

theorem rowOfKey_cellKey (b : BufIx) (o : Nat) : rowOfKey (cellKey b o) = arrayRow b o := by
  have hb := b.isLt
  apply Fin.ext
  simp only [rowOfKey, cellKey, rowOf, bankOf, arrayRow, Fin.ofNat_eq_cast, Fin.val_natCast]
  omega

/-- A tick keeps the bytes of a row that it leaves within its retention time. -/
theorem microsecond_bufByte {s : State} (ha : arrayWf s.array = true) {b : BufIx} {o : Nat}
    (hr : (s.rows.get (arrayRow b o)).age < Config.retentionTicks) : s.microsecond.bufByte b o = s.bufByte b o := by
  let older (r : RowState) : RowState := { r with age := r.age + 1 }
  let aged : State := { s with usDivider := 0, rows := s.rows.map older }
  have hcell : s.microsecond.cell = (aged.loseRows fun r => Config.retentionTicks < r.age).cell :=
    cell_congr (microsecond_array s) fun r => by rw [microsecond_rows]; rfl
  have hkept : (aged.loseRows fun r => Config.retentionTicks < r.age).bufByte b o = aged.bufByte b o := by
    refine State.bufByte_loseRows_kept (s := aged) ha ?_
    rw [rowOfKey_cellKey]
    show decide (Config.retentionTicks < ((s.rows.map older).get (arrayRow b o)).age) = false
    rw [vector_get_map]
    exact decide_eq_false (Nat.not_lt_of_le hr)
  have haged : aged.cell = s.cell := cell_congr rfl fun r => (congrArg RowState.epoch (vector_get_map s.rows older r) :)
  calc s.microsecond.bufByte b o = (aged.loseRows fun r => Config.retentionTicks < r.age).bufByte b o := congrFun hcell _
    _ = aged.bufByte b o := hkept
    _ = s.bufByte b o := congrFun haged _

/-- The commands that are ticks give the µs tick or nothing. -/
theorem exec_ticks {c : Instr} (h : c.ticks = true) (s : State) : ∃ due, exec c s = done (s.tickWhen due) := by
  cases c with
  | usTick | msTick | intervalExpiry | waitTimerExpiry | leaseRunOut => exact ⟨_, rfl⟩
  | _ => exact nomatch h

/-- Settles O52: the commands of the first part leave every cell as it is; of a tick's parts only the ageing of the rows reaches one. -/
theorem otherCommandsKeepBytes : Obligations.OtherCommandsKeepBytes := by
  unfold Obligations.OtherCommandsKeepBytes
  refine ⟨fun c s t hc he b o => ?_, fun c s t hc ha he b o hr => ?_⟩
  · have kept := (cell_quietClosed s.cell).exec (fun _ _ _ _ _ _ h => h) (fun hl => absurd hl (by simp [hc])) rfl he
    exact congrFun kept _
  · obtain ⟨due, hd⟩ := exec_ticks hc s
    rw [next_of_done (hd.symm.trans he), settle_bufByte]
    unfold State.tickWhen
    split
    · exact microsecond_bufByte ha hr
    · rfl

/-! ## The expiry list (R75, R77) -/

theorem Position.key_lt_or_gt {x y : Position} (h : x ≠ y) : x.key < y.key ∨ y.key < x.key := by
  obtain ⟨b, r⟩ := x
  obtain ⟨d, q⟩ := y
  have hne : ¬(b.val = d.val ∧ r = q) := fun e => h (by rw [Fin.ext e.1, e.2])
  unfold Position.key
  cases r with
  | holder =>
    cases q with
    | holder => simp only [and_true] at hne; simp only; omega
    | reader q => have := q.isLt; simp only; omega
  | reader r =>
    cases q with
    | holder => have := r.isLt; simp only; omega
    | reader q =>
      have hr := r.isLt
      have hq := q.isLt
      simp only [LeaseRole.reader.injEq, Fin.ext_iff] at hne
      simp only
      omega

/-- The positions of a list with an entry placed. -/
theorem mem_expiryInsert {l : List (Position × ExpiryEntry)} {x : Position} {e : ExpiryEntry} {y : Position × ExpiryEntry}
    (h : y ∈ expiryInsert l x e) : y = (x, e) ∨ y ∈ l := by
  induction l with
  | nil => simpa [expiryInsert] using h
  | cons z rest ih =>
    simp only [expiryInsert] at h
    split at h
    · simpa using h
    · split at h
      · obtain h | h := List.mem_cons.1 h
        · exact .inl h
        · exact .inr (List.mem_cons_of_mem _ h)
      · obtain h | h := List.mem_cons.1 h
        · exact .inr (h ▸ List.mem_cons_self ..)
        · exact (ih h).imp_right (List.mem_cons_of_mem _)

theorem expiryInsert_sorted {l : List (Position × ExpiryEntry)} (h : l.Pairwise fun x y => x.1.key < y.1.key) (x : Position)
    (e : ExpiryEntry) : (expiryInsert l x e).Pairwise fun x y => x.1.key < y.1.key := by
  induction l with
  | nil => simp [expiryInsert]
  | cons z rest ih =>
    obtain ⟨hz, hr⟩ := List.pairwise_cons.1 h
    simp only [expiryInsert]
    split
    · rename_i hlt
      refine List.pairwise_cons.2 ⟨fun y hy => ?_, h⟩
      obtain rfl | hy := List.mem_cons.1 hy
      · exact hlt
      · exact Nat.lt_trans hlt (hz y hy)
    · rename_i hge
      split
      · rename_i heq
        exact List.pairwise_cons.2 ⟨fun y hy => heq ▸ hz y hy, hr⟩
      · rename_i hne
        refine List.pairwise_cons.2 ⟨fun y hy => ?_, ih hr⟩
        obtain rfl | hy := mem_expiryInsert hy
        · exact (Position.key_lt_or_gt hne).resolve_left hge
        · exact hz y hy

/-- A position that has an entry keeps one when another is placed. -/
theorem position_expiryInsert {l : List (Position × ExpiryEntry)} {y : Position} (x : Position) (e : ExpiryEntry)
    (h : ∃ f, (y, f) ∈ l) : ∃ f, (y, f) ∈ expiryInsert l x e := by
  induction l with
  | nil => exact absurd h (by simp)
  | cons z rest ih =>
    obtain ⟨f, hf⟩ := h
    simp only [expiryInsert]
    split
    · exact ⟨f, List.mem_cons_of_mem _ hf⟩
    · split
      · rename_i heq
        obtain rfl | hf := List.mem_cons.1 hf
        · exact ⟨e, heq ▸ List.mem_cons_self ..⟩
        · exact ⟨f, List.mem_cons_of_mem _ hf⟩
      · obtain rfl | hf := List.mem_cons.1 hf
        · exact ⟨f, List.mem_cons_self ..⟩
        · obtain ⟨g, hg⟩ := ih ⟨f, hf⟩
          exact ⟨g, List.mem_cons_of_mem _ hg⟩

/-- The law of the expiry list speaks of the list, the sweep position and the offer. -/
theorem State.ExpiryLawful.congr {s t : State} (h : s.ExpiryLawful) (he : t.expiry = s.expiry) (hs : t.sweep = s.sweep)
    (ho : t.lmOffer = s.lmOffer) : t.ExpiryLawful := by
  refine ⟨he ▸ h.sorted, ?_⟩
  rw [he, hs, ho]
  exact h.offered

theorem nextInSweep_mem {s : State} {x : Position} (h : s.nextInSweep = some x) : ∃ e, (x, e) ∈ s.expiry := by
  unfold State.nextInSweep at h
  split at h
  · rename_i e he
    obtain rfl := Option.some.inj h
    exact ⟨e.2, List.mem_of_find?_eq_some he⟩
  · obtain ⟨e, he, rfl⟩ := Option.map_eq_some_iff.1 h
    exact ⟨e.2, List.mem_of_mem_head? he⟩

theorem offerExpiry_lawful {s : State} (h : s.ExpiryLawful) : s.offerExpiry.ExpiryLawful := by
  unfold State.offerExpiry
  split
  · exact h
  · split
    · exact h
    · rename_i x hx
      refine ⟨h.sorted, fun y hy => ?_⟩
      obtain rfl := Option.some.inj hy
      exact ⟨rfl, nextInSweep_mem (s := s) hx⟩

theorem expiry_poolClosed : PoolClosed State.ExpiryLawful where
  pool _ _ _ _ _ _ h := h.congr rfl rfl rfl
  port _ _ _ h := h.congr rfl rfl rfl
  place _ _ _ h := h.congr (by simp) (by simp) (by simp)
  session _ _ _ h := h.congr rfl rfl rfl
  finished _ h := h.congr rfl rfl rfl

theorem expiry_quietClosed : QuietClosed State.ExpiryLawful where
  toPoolClosed := expiry_poolClosed
  pop _ h := h.congr rfl rfl rfl
  taken _ h := ⟨h.sorted.filter _, fun _ hx => nomatch hx⟩
  param {s} x _ _ h := by cases x <;> exact h.congr rfl rfl rfl
  cleared h := h.congr rfl rfl rfl
  occupied _ h := h.congr rfl rfl rfl
  freed _ _ h := h.congr rfl rfl rfl
  withdrawn _ h := h.congr rfl rfl rfl
  refreshGranted k h := by
    rw [refreshGranted_frame]
    exact h.congr rfl rfl rfl
  refreshDone k h := by
    rw [refreshDone_frame]
    exact h.congr rfl rfl rfl
  straps _ _ h := h.congr rfl rfl rfl
  settle {s} h := by
    unfold State.settle
    split
    · exact h
    · exact offerExpiry_lawful (s := { s with ports := s.ports.map PortState.present }) (h.congr rfl rfl rfl)

theorem millisecond_expiry {s : State} (h : s.ExpiryLawful) : s.millisecond.ExpiryLawful := by
  have placed : ∀ (es l : List (Position × ExpiryEntry)), l.Pairwise (fun x y => x.1.key < y.1.key) →
      (es.foldl (fun l e => expiryInsert l e.1 e.2) l).Pairwise (fun x y => x.1.key < y.1.key) ∧
        ∀ y, (∃ f, (y, f) ∈ l) → ∃ f, (y, f) ∈ es.foldl (fun l e => expiryInsert l e.1 e.2) l := by
    intro es
    induction es with
    | nil => exact fun _ hl => ⟨hl, fun _ hy => hy⟩
    | cons e es ih =>
      intro l hl
      obtain ⟨hs, hm⟩ := ih _ (expiryInsert_sorted hl e.1 e.2)
      exact ⟨hs, fun y hy => hm y (position_expiryInsert e.1 e.2 hy)⟩
  obtain ⟨sorted, stands⟩ := placed (allBuffers.flatMap s.expiriesOf) s.expiry h.sorted
  exact ⟨sorted, fun x hx => ⟨(h.offered x hx).1, stands x (h.offered x hx).2⟩⟩

theorem expiry_loudClosed : LoudClosed State.ExpiryLawful where
  byte _ _ _ h := h.congr rfl rfl rfl
  tick {s} h := by
    have counted : ({ s with usDivider := 0 } : State).ageRows.tickInterval.ExpiryLawful :=
      expiry_poolClosed.tickInterval (h.congr rfl rfl rfl) fun _ => h.congr rfl rfl rfl
    exact tickMs_keeps (millisecond_expiry (counted.congr rfl rfl rfl)) fun _ => counted.congr rfl rfl rfl
  reset _ := ⟨List.Pairwise.nil, fun _ hx => nomatch hx⟩
  power h := h.congr rfl rfl rfl

/-! ## Access paths and banks (R122, R124) -/

/-- A law of the banks' grants and the ports' paths outlives an update that keeps both. -/
theorem State.PathsLawful.congr {s t : State} (h : s.PathsLawful) (ha : t.arbiters = s.arbiters)
    (hp : ∀ p, (t.port p).path = (s.port p).path) : t.PathsLawful := by
  intro k p hk
  rw [State.arbiter, ha] at hk
  rw [hp]
  exact h k p hk

theorem State.PathsLawful.modPort {s : State} (h : s.PathsLawful) (p : Port) {f : PortState → PortState}
    (hf : (f (s.port p)).path = (s.port p).path) : (s.modPort p f).PathsLawful := by
  refine h.congr rfl fun q => ?_
  rw [port_modPort]
  split
  · rename_i e
    rw [e, hf]
  · rfl

theorem paths_poolClosed : PoolClosed State.PathsLawful where
  pool _ _ _ _ _ _ h := h
  port p _ hf h := h.modPort p hf.path
  place {s} p r _ h := h.congr (place_arbiters ..) fun q => by
    obtain ⟨n, hn⟩ := place_port_frame s p q r
    rw [hn]
  session p _ _ h := h.modPort p rfl
  finished p h := h.modPort p rfl

/-- A bank whose arbiter serves nobody, beside the others, serves no request of a path. -/
theorem State.PathsLawful.modArbiter {s : State} (h : s.PathsLawful) (k : BankIx) {f : Arbiter → Arbiter}
    (hf : ∀ p, (f (s.arbiter k)).current = some (.port p) → ∃ r, (s.port p).path = some r ∧ r.bank = k) :
    (s.modArbiter k f).PathsLawful := by
  intro j p hj
  rw [arbiter_modArbiter] at hj
  split at hj
  · rename_i e
    subst e
    exact hf p hj
  · exact h j p hj

/-- A port whose path no bank serves may lose its path. -/
theorem State.PathsLawful.dropPath {s : State} (h : s.PathsLawful) {p : Port}
    (hp : ∀ k, (s.arbiter k).current ≠ some (.port p)) : (s.modPort p fun x => { x with path := none }).PathsLawful := by
  intro k q hk
  obtain rfl | hq := eq_or_ne q p
  · exact absurd hk (hp k)
  · rw [port_modPort_other _ hq]
    exact h k q hk

theorem paths_quietClosed : QuietClosed State.PathsLawful where
  toPoolClosed := paths_poolClosed
  pop p h := h.modPort p rfl
  taken _ h := h
  param {s} x _ _ h := by cases x <;> exact h
  cleared h := h
  occupied {s} p r hg h := h.modArbiter r.bank fun q hq => by
    obtain rfl : p = q := by simpa using hq
    exact ⟨r, hg.1, rfl⟩
  freed {s} p r hr ha h := by
    have idle : (s.modArbiter r.bank fun a => { a with current := none }).PathsLawful := h.modArbiter r.bank fun q hq => nomatch hq
    refine idle.dropPath fun k hk => ?_
    rw [arbiter_modArbiter] at hk
    split at hk
    · exact nomatch hk
    · rename_i hne
      obtain ⟨r', hr', hk'⟩ := h k p hk
      rw [hr] at hr'
      exact hne (hk' ▸ Option.some.inj hr' ▸ rfl)
  withdrawn {s} p hw h := by
    refine h.dropPath fun k hk => ?_
    obtain ⟨r, hr, rfl⟩ := h k p hk
    simp [State.withdrawable, hr, hk] at hw
  refreshGranted {s} k h := by
    unfold State.refreshGranted
    split
    · exact h.modArbiter k fun q hq => by simp at hq
    · exact h
  refreshDone {s} k h := by
    unfold State.refreshDone
    split
    · exact State.PathsLawful.modArbiter (s := (s.restartRow _).modRefresh k _) h k fun q hq => nomatch hq
    · exact h
  straps _ _ h := h
  settle {s} h := by
    intro k p hk
    rw [settle_arbiter] at hk
    obtain ⟨r, hr, hb⟩ := h k p hk
    refine ⟨r, ?_, hb⟩
    obtain hs | hs := settle_port_cases s p
    · rw [hs, hr]
    · rw [hs]
      unfold PortState.present
      split
      · exact hr
      · rename_i hn
        exact nomatch hn.symm.trans hr

theorem paths_loudClosed : LoudClosed State.PathsLawful where
  byte _ _ _ h := h
  tick {s} h := by
    have counted : ({ s with usDivider := 0 } : State).ageRows.tickInterval.PathsLawful := paths_poolClosed.tickInterval h fun _ => h
    refine tickMs_keeps ?_ fun _ => counted
    refine State.PathsLawful.congr counted rfl fun p => ?_
    rw [millisecond_port]
    exact tickTimer_path _
  reset _ k p hk := by
    have idle : (State.reset.arbiter k).current = some (.port p) := hk
    simp at idle
  power h := h

/-! ## Engines (R21) -/

theorem State.EnginesLawful.modPort {s : State} (h : s.EnginesLawful) (p : Port) {f : PortState → PortState}
    (hf : (f (s.port p)).engine.Lawful) : (s.modPort p f).EnginesLawful := by
  intro q
  rw [port_modPort]
  split
  · rename_i e
    exact e ▸ hf
  · exact h q

theorem State.EnginesLawful.of_port {s t : State} (h : s.EnginesLawful) (ht : ∀ p, (t.port p).engine = (s.port p).engine) :
    t.EnginesLawful := fun p => ht p ▸ h p

theorem Engine.completed_lawful (e : Engine) (c : ResultCode) (r : Vector Word 4) : (e.completed c r).Lawful := by
  constructor <;> simp [Engine.completed]

theorem Engine.reset_lawful : Engine.reset.Lawful := by
  constructor <;> simp [Engine.reset]

/-- What the law of an engine that is BUSY with nothing begun leaves open. -/
theorem Engine.Lawful.not_waiting {e : Engine} (h : e.Lawful) (hs : e.state ≠ .waiting) :
    e.timer = none ∧ e.cancelMarker = false := by
  constructor
  · by_contra hn
    exact hs (h.timer (.inl (Option.isSome_iff_ne_none.2 hn)))
  · by_contra hn
    exact hs (h.timer (.inr (by simpa using hn)))

theorem Engine.Lawful.not_busy {e : Engine} (h : e.Lawful) (hs : e.state ≠ .busy) :
    e.bulk = none ∧ e.claimed = none ∧ e.close = none := by
  refine ⟨?_, ?_, ?_⟩ <;> by_contra hn <;> have some := Option.isSome_iff_ne_none.2 hn
  · exact hs (h.bulk some).1
  · exact hs (h.claimed some).1
  · exact hs (h.close some).1

theorem Engine.Ready.code {e : Engine} {code : ReqCode} (h : e.Ready code) : ∀ r ∈ e.request, r.code = code := by
  obtain ⟨r, hr, hc⟩ := h.request
  intro r' hr'
  rwa [← Option.some.inj (hr.symm.trans hr')]

theorem Engine.Moves.lawful {e f : Engine} (hm : e.Moves f) (h : e.Lawful) : f.Lawful := by
  cases hm with
  | same => exact h
  | staged opd => exact ⟨h.idle, h.waiting, h.timer, h.bulk, h.claimed, h.close⟩
  | completed c r => exact e.completed_lawful c r
  | taken w idle =>
    obtain ⟨timer, marker⟩ := h.not_waiting (by simp [idle])
    obtain ⟨bulk, claimed, close⟩ := h.not_busy (by simp [idle])
    constructor <;> simp [Engine.taking, timer, marker, bulk, claimed, close]
  | cancelled =>
    unfold Engine.cancelled
    split
    · exact h
    · rename_i waiting
      split
      · exact ⟨h.idle, h.waiting, fun _ => waiting, h.bulk, h.claimed, h.close⟩
      · exact h
    · exact ⟨h.idle, h.waiting, h.timer, by simpa using h.bulk, h.claimed, h.close⟩
  | waits t ready =>
    have nothing : e.bulk = none ∧ e.claimed = none ∧ e.close = none := by
      obtain ready | ready := ready <;> exact ⟨ready.bulk, ready.claimed, ready.close⟩
    have request : ∃ r ∈ e.request, r.code = .claim ∨ r.code = .take := by
      obtain ready | ready := ready <;> obtain ⟨r, hr, hc⟩ := ready.request
      · exact ⟨r, hr, .inl hc⟩
      · exact ⟨r, hr, .inr hc⟩
    exact ⟨nofun, fun _ => request, fun _ => rfl, by simp [nothing], by simp [nothing], by simp [nothing]⟩
  | claims w zero =>
    obtain ⟨r, hr, hz⟩ : ∃ r, e.request = some r ∧ r.code = .claim ∧ r.zero = true := by
      simpa [Engine.claimsZero, Option.any_eq_true] using zero
    exact ⟨nofun, nofun, by simp, fun hb => ⟨rfl, (h.bulk hb).2⟩, fun _ => ⟨rfl, r, hr, hz⟩, fun hc => ⟨rfl, (h.close hc).2⟩⟩
  | closes g ready =>
    obtain ⟨r, hr, hc⟩ := ready.request
    exact ⟨h.idle, h.waiting, h.timer, h.bulk, h.claimed, fun _ => ⟨ready.state, r, hr, hc⟩⟩
  | starts m busy begins =>
    refine ⟨h.idle, h.waiting, h.timer, fun _ => ⟨busy, fun r hr => ?_⟩, h.claimed, h.close⟩
    obtain ⟨c, hc, ready⟩ | claimed := begins
    · have := ready.code r hr
      exact this ▸ hc.elim .inl fun hc => .inr (.inl hc)
    · obtain ⟨r', hr', hcode, _⟩ := (h.claimed claimed).2
      exact .inr (.inr (Option.some.inj (hr'.symm.trans hr) ▸ hcode))
  | mover f => exact ⟨h.idle, h.waiting, h.timer, by simpa using h.bulk, h.claimed, h.close⟩
  | ended => exact ⟨h.idle, h.waiting, h.timer, nofun, h.claimed, h.close⟩
  | fenced =>
    refine ⟨nofun, nofun, by simp [Engine.fenced], fun _ => ⟨rfl, nofun⟩, nofun, nofun⟩

theorem engines_poolClosed : PoolClosed State.EnginesLawful where
  pool _ _ _ _ _ _ h := h
  port p _ hf h := h.modPort p (hf.engine.lawful (h p))
  place {s} p r _ h := h.of_port fun q => by
    obtain ⟨n, hn⟩ := place_port_frame s p q r
    rw [hn]
  session p _ _ h := h.modPort p (h p)
  finished p h := h.modPort p Engine.reset_lawful

theorem Engine.Lawful.present {x : PortState} (h : x.engine.Lawful) : x.present.engine.Lawful := by
  unfold PortState.present
  split
  · exact h
  · split
    · exact h
    · exact (Engine.Moves.mover x.engine _).lawful h

theorem engines_quietClosed : QuietClosed State.EnginesLawful where
  toPoolClosed := engines_poolClosed
  pop p h := h.modPort p (h p)
  taken _ h := h
  param {s} x _ _ h := by cases x <;> exact h
  cleared h := h
  occupied _ h := h
  freed {s} p r _ _ h := State.EnginesLawful.modPort (s := s.modArbiter r.bank _) h p (h p)
  withdrawn {s} p _ h := h.modPort p (h p)
  refreshGranted k h := h.of_port fun p => by rw [refreshGranted_frame]; rfl
  refreshDone k h := h.of_port fun p => by rw [refreshDone_frame]; rfl
  straps _ _ h := h
  settle {s} h p := by
    obtain hs | hs := settle_port_cases s p
    · exact hs ▸ h p
    · exact hs ▸ (h p).present

theorem tickTimer_lawful {x : PortState} (h : x.engine.Lawful) : x.tickTimer.engine.Lawful := by
  obtain hx | ⟨waiting, _, hx⟩ := tickTimer_frame x
  · rw [hx]
    exact h
  · rw [hx]
    exact ⟨h.idle, h.waiting, fun _ => waiting, h.bulk, h.claimed, h.close⟩

theorem engines_loudClosed : LoudClosed State.EnginesLawful where
  byte _ _ _ h := h
  tick {s} h := by
    have counted : ({ s with usDivider := 0 } : State).ageRows.tickInterval.EnginesLawful :=
      engines_poolClosed.tickInterval h fun _ => h
    refine tickMs_keeps (fun p => ?_) fun _ => counted
    rw [millisecond_port]
    exact tickTimer_lawful (counted p)
  reset _ p := by
    rw [resetFalls_port]
    exact Engine.reset_lawful
  power h := h

/-! ## A close step leaves its engine's request alone (R56, R68) -/

theorem complete_port_other (w : Work) {p q : Port} (hpq : p ≠ q) (c : ResultCode) (r : Vector Word 4) (long : Bool) :
    (w.complete q c r long).state.port p = w.state.port p := port_modPort_other _ hpq _

theorem claimGiven_port_other (w : Work) {p q : Port} (hpq : p ≠ q) (b : BufIx) (long : Bool) :
    (w.claimGiven q b long).state.port p = w.state.port p := by
  unfold Work.claimGiven
  split
  · exact port_modPort_other _ hpq _
  · exact complete_port_other w hpq ..

theorem handOut_port_other (s : State) {p q : Port} (hpq : p ≠ q) (b : BufIx) : (s.handOut q b).port p = s.port p := by
  unfold State.handOut State.raiseCharge
  rw [port_modPort_other _ hpq, port_modBuf]

/-- A buffer that enters FREE reaches no port but a claim waiter. -/
theorem enterFree_port_other {w : Work} {p : Port} (hp : p ∉ w.state.claimWait) (b : BufIx) :
    (w.enterFree b).state.port p = w.state.port p := by
  unfold Work.enterFree
  simp only
  split
  · rename_i q hq
    have hpq : p ≠ q := fun e => hp (e ▸ List.mem_of_find?_eq_some hq)
    unfold Work.serveClaim
    rw [claimGiven_port_other _ hpq]
    exact handOut_port_other (w.state.modBuf b BufRec.freed) hpq b
  · rfl

theorem lastUse_port_other {w : Work} {p : Port} (hp : p ∉ w.state.claimWait) (b : BufIx) :
    (w.lastUse b).state.port p = w.state.port p := by
  unfold Work.lastUse
  split
  · exact enterFree_port_other hp b
  · rfl

theorem tellOrigin_claimWait (s : State) (k : RecordKind) (c : ChanIx) (b : BufIx) :
    (s.tellOrigin k c b).claimWait = s.claimWait := by
  unfold State.tellOrigin
  split
  · rfl
  · split
    · exact place_claimWait ..
    · rfl

theorem place_engine (s : State) (p q : Port) (r : Record) : ((s.place p r).port q).engine = (s.port q).engine := by
  obtain ⟨n, hn⟩ := place_port_frame s p q r
  rw [hn]

theorem tellOrigin_engine (s : State) (k : RecordKind) (c : ChanIx) (b : BufIx) (p : Port) :
    ((s.tellOrigin k c b).port p).engine = (s.port p).engine := by
  unfold State.tellOrigin
  split
  · rfl
  · split
    · exact place_engine ..
    · rfl

theorem returnTo_engine (s : State) (o : Port) (b : BufIx) (p : Port) : ((s.returnTo o b).port p).engine = (s.port p).engine := by
  show ((State.modPort _ o _).port p).engine = _
  rw [port_modPort]
  split <;> rfl

theorem disposeEntry_engine {w : Work} {p : Port} (hp : p ∉ w.state.claimWait) (c : ChanIx) (b : BufIx) :
    ((w.disposeEntry c b).state.port p).engine = (w.state.port p).engine := by
  unfold Work.disposeEntry
  simp only
  split
  · rfl
  · simp only [map_state]
    split
    · rfl
    · rw [returnTo_engine, tellOrigin_engine]
      rfl
  · rw [lastUse_port_other (by rw [map_state, tellOrigin_claimWait]; exact hp), map_state, tellOrigin_engine]
    rfl

/-- A port that is BUSY waits for nothing, so what its close step frees is not handed to it. -/
theorem engines_countsClose {s : State} (hw : s.WaitsLawful) : s.CountsClose State.EnginesLawful := by
  intro p g b g' hg hc h
  have busy := grants_busy hg (by decide) (by decide)
  have waitless : p ∉ s.claimWait := fun hm => by simpa [busy] using (hw.waiting p).2 (.inl hm)
  have same := disposeEntry_engine (w := Work.start (s.served (.re p))) waitless g.channel b
  have law := h p
  have closes := law.close (by rw [same]; exact Option.isSome_iff_exists.2 ⟨g, hc⟩)
  exact h.modPort p ⟨law.idle, law.waiting, law.timer, law.bulk, law.claimed, fun _ => closes⟩

/-- Settles O58: the expiry list entry by entry, the banks grant by grant, the engines move by move. -/
theorem stepKeepsUnits : Obligations.StepKeepsUnits := by
  unfold Obligations.StepKeepsUnits
  refine ⟨fun s t h he => ?_, fun s t h he => ?_, fun s t hw h he => ?_⟩
  · exact expiry_quietClosed.step (fun _ _ _ _ _ _ _ h => h.congr rfl rfl rfl) expiry_loudClosed
      (fun _ _ h => h.congr rfl rfl rfl) (fun _ _ h => h.congr rfl rfl rfl) h he
  · exact paths_quietClosed.step (fun _ p _ _ _ _ _ h => h.modPort p rfl) paths_loudClosed (fun _ _ h => h) (fun _ _ h => h) h he
  · exact engines_quietClosed.step
      (fun _ => engines_countsClose ⟨hw.nodup, hw.waiting, hw.once⟩) engines_loudClosed (fun _ _ h => h) (fun _ _ h => h) h he

end Sys2Proof.Machine
end

section
/-! The step itself, the state after reset, and what the blocks do by themselves after each command. -/

namespace Sys2Proof.Machine

/-! ## The step (R159) -/

theorem settle_of_resetLow {s : State} (h : s.resetLow = true) : s.settle = s := by
  unfold State.settle
  rw [if_pos h]

/-- Settles O1: by the step's own equation. -/
theorem stepRunsFrontCommand : Obligations.StepRunsFrontCommand := by
  unfold Obligations.StepRunsFrontCommand
  exact fun _ _ _ => rfl

theorem step_of_empty {s : State} (h : s.pending = []) : step s = .next s.clkCycle.settle := by
  unfold step
  rw [h]
  rfl

/-- Settles O2: the three branches of a CLK cycle. -/
theorem emptyQueueIsOneClkCycle : Obligations.EmptyQueueIsOneClkCycle := by
  unfold Obligations.EmptyQueueIsOneClkCycle
  intro s hs
  rw [step_of_empty hs]
  refine ⟨fun low => ?_, fun high below => ?_, fun high reached => ?_⟩
  · simp [State.clkCycle, low, settle_of_resetLow]
  · simp [State.clkCycle, high, Nat.not_le_of_lt below]
  · have tick : s.clkCycle = s.tickWhen true := by simp [State.clkCycle, State.tickWhen, high, reached]
    rw [tick]
    rfl

/-! ## The state after reset -/

@[simp] theorem reset_claimWait : State.reset.claimWait = [] := rfl
@[simp] theorem reset_freeList : State.reset.freeList = List.finRange 256 := by simp only [State.reset]

/-- Settles O5: field by field. -/
theorem resetValues : Obligations.ResetValues := by
  unfold Obligations.ResetValues
  refine ⟨fun p => ?port, fun b => ?buffer, reset_freeList, rfl, fun c => ?channel, rfl, rfl, rfl, rfl, fun k => ?bank,
    rfl, rfl, rfl, rfl, rfl, rfl⟩
  case port =>
    unfold State.sessionState
    rw [reset_port]
    exact ⟨rfl, rfl, rfl, rfl, rfl, rfl, rfl, rfl, rfl, rfl, rfl, by decide, by decide, rfl, rfl, rfl, rfl, rfl, rfl, rfl, rfl⟩
  case buffer =>
    rw [reset_buf]
    exact ⟨by decide, rfl, rfl, rfl, rfl⟩
  case channel =>
    rw [reset_chan]
    exact ⟨rfl, rfl, rfl⟩
  case bank => exact ⟨reset_arbiter k, reset_bankRefresh k⟩

@[simp] theorem BufRec.reset_roleOf (p : Port) : BufRec.reset.roleOf p = false := rfl

@[simp] theorem maskHas_zero (p : Port) : maskHas 0#4 p = false := by simp [maskHas]

theorem reset_poolLawful : State.reset.PoolLawful where
  engines p := by
    rw [reset_port]
    exact Engine.reset_lawful
  sessions p := by
    constructor
    · simp [PortState.reset, Engine.reset]
    · simp [PortState.reset, Engine.reset]
    · simp [PortState.reset]
    · simp
    · intro _ c
      rw [reset_chan]
      exact maskHas_zero p
  teardowns p := by
    constructor <;> simp [State.sessionState, PortState.reset, Session.reset, Teardown.reset, TeardownPhase.afterFence,
      TeardownPhase.afterRoles]
  waits := by
    refine ⟨List.nodup_nil, fun p => ?_, fun p c h => ?_⟩
    · simp [State.TakeWaits, PortState.reset, Engine.reset, Chan.reset]
    · simp [State.TakeWaits, Chan.reset] at h
  buffers b := by
    rw [reset_buf]
    constructor <;> simp [BufRec.reset]
  freeList := ⟨by rw [reset_freeList]; exact List.nodup_finRange 256, fun b => by simp [BufRec.reset, BufRec.state]⟩
  channels c := by
    rw [reset_chan]
    constructor <;> simp [Chan.reset, Chan.setup, Chan.closer]
  queues := by
    refine ⟨fun b c => ?_, fun b c h => ?_⟩
    · simp [Chan.reset, BufRec.reset]
    · simp [BufRec.reset] at h
  charges p := by
    have roles : State.reset.roleCount p = 0 := by simp [State.roleCount]
    rw [roles, reset_port]
    exact ⟨rfl, by decide, by decide⟩
  bulk b := by
    have users : State.reset.bulkUsers b = [] := by simp [State.bulkUsers, PortState.reset, Engine.reset]
    rw [users, reset_buf]
    rfl
  windows p w v h := by
    rw [reset_port] at h
    cases w <;> cases h
  movers p m h := by
    rw [reset_port] at h
    cases h

/-- Settles O6: law by law; every record is at its reset values. -/
theorem resetLawful : Obligations.ResetLawful where
  notes p := by
    rw [reset_port]
    exact NoteQueue.reset_lawful
  quiet p _ := by
    rw [reset_port]
    rfl
  counters := reset_counters
  array := State.reset_array_wf
  expiry := ⟨List.Pairwise.nil, fun _ hx => nomatch hx⟩
  paths k p hk := by simp at hk
  pool := reset_poolLawful

/-! ## What a free path presents (R122) -/

theorem settle_port_of_high {s : State} (h : s.resetLow = false) (p : Port) : s.settle.port p = (s.port p).present := by
  have presents : ∀ t : State, t.offerExpiry.port p = t.port p := by
    intro t
    unfold State.offerExpiry
    split
    · rfl
    · split <;> rfl
  unfold State.settle
  rw [if_neg (by simp [h]), presents]
  exact vector_get_map ..

theorem present_of_path {x : PortState} {r : BankRequest} (h : x.path = some r) : x.present = x := by
  unfold PortState.present
  rw [h]

theorem present_of_due {x : PortState} {r : BankRequest} (h : x.path = none)
    (hd : x.engine.copyWriteDue.or x.accessDue = some r) : x.present = { x with path := some r } := by
  unfold PortState.present
  rw [h, hd]

theorem present_of_none_due {x : PortState} (h : x.path = none) (hd : x.engine.copyWriteDue.or x.accessDue = none) :
    x.present = { x with engine := x.engine.readMark, path := x.engine.burstDue } := by
  unfold PortState.present
  rw [h, hd]

theorem requestAt_eq (b : BufIx) (o : Nat) (what : PathRequest) :
    requestAt b o what = { bank := Fin.ofNat 4 b.val, row := 2 * (b.val / 4) + o % 512 / 256, what := what } := by
  have row : rowOf b o = 2 * (b.val / 4) + o % 512 / 256 := by
    unfold rowOf
    omega
  rw [requestAt, row]
  rfl

theorem copyWriteDue_of_run {e : Engine} {m : Bulk} {run : List Byte} (hb : e.bulk = some m) (hr : m.readRun = some run) :
    e.copyWriteDue = some (requestAt m.destination.buffer (m.burstStart m.destination) .copyWrite) := by
  unfold Engine.copyWriteDue
  simp [hb, hr]

theorem copyWriteDue_of_no_run {e : Engine} (h : ∀ m, e.bulk = some m → m.readRun = none) : e.copyWriteDue = none := by
  unfold Engine.copyWriteDue
  split
  · rename_i m hm
    simp [h m hm]
  · rfl

theorem accessDue_of_waiting {x : PortState} {a : BusAccess} (ha : x.access = some a) (hp : a.phase = .waiting) :
    x.accessDue = some (requestAt a.buffer a.offset a.kind.pathRequest) := by
  unfold PortState.accessDue
  simp [ha, hp]

theorem accessDue_of_not_waiting {x : PortState} (h : ∀ a, x.access = some a → a.phase ≠ .waiting) : x.accessDue = none := by
  unfold PortState.accessDue
  split
  · rename_i a ha
    rw [if_neg (h a ha)]
  · rfl

theorem readMark_of_clear {e : Engine} (h : ∀ m, e.bulk = some m → m.phase = .moving → m.abort = false) : e.readMark = e := by
  have same : (e.bulk.map fun m => if m.phase = .moving && m.abort then m.stop .aborted else m) = e.bulk := by
    cases hm : e.bulk with
    | none => rfl
    | some m =>
      have clear : ¬(m.phase = .moving && m.abort) = true := by simpa using h m hm
      rw [Option.map_some, if_neg clear]
  unfold Engine.readMark
  rw [same]

section
variable {x : PortState} (hpath : x.path = none) (hd : x.engine.copyWriteDue.or x.accessDue = none)
include hpath hd

theorem present_marked {m : Bulk} (hb : x.engine.bulk = some m) (hm : m.phase = .moving) (ha : m.abort = true) :
    x.present = { x with engine := { x.engine with bulk := some { m with phase := .stopped .aborted, readRun := none } } } := by
  rw [present_of_none_due hpath hd]
  simp [Engine.readMark, Engine.burstDue, hb, hm, ha, hpath, Bulk.stop]

theorem present_burst {m : Bulk} (hb : x.engine.bulk = some m) (ha : m.abort = false) :
    x.present = { x with path := x.engine.burstDue } := by
  rw [present_of_none_due hpath hd]
  rw [readMark_of_clear fun m' hm' _ => Option.some.inj (hb.symm.trans hm') ▸ ha]

theorem present_idle (hb : ∀ m, x.engine.bulk = some m → m.phase ≠ .moving) : x.present = x := by
  rw [present_of_none_due hpath hd]
  have nothing : x.engine.burstDue = none := by
    unfold Engine.burstDue
    cases hm : x.engine.bulk with
    | none => rfl
    | some m => simp [hb m hm]
  rw [readMark_of_clear fun m hm moving => absurd moving (hb m hm), nothing, ← hpath]

end

/-! ## The sweep of the Lease Monitor (R77) -/

theorem settle_sweep_of_offer {s : State} {x : Position} (h : s.lmOffer = some x) :
    s.settle.lmOffer = some x ∧ s.settle.sweep = s.sweep := by
  unfold State.settle State.offerExpiry
  split
  · exact ⟨h, rfl⟩
  · simp [h]

theorem settle_sweep_of_next {s : State} {x : Position} (hr : s.resetLow = false) (ho : s.lmOffer = none)
    (hx : s.nextInSweep = some x) : s.settle.lmOffer = some x ∧ s.settle.sweep = x := by
  have offers : ∀ t : State, t.lmOffer = none → t.nextInSweep = some x →
      t.offerExpiry.lmOffer = some x ∧ t.offerExpiry.sweep = x := by
    intro t ht hn
    unfold State.offerExpiry
    rw [ht, hn]
    exact ⟨rfl, rfl⟩
  unfold State.settle
  rw [if_neg (by simp [hr])]
  exact offers _ ho hx

theorem settle_sweep_of_empty {s : State} (h : s.expiry = []) : s.settle.lmOffer = s.lmOffer ∧ s.settle.sweep = s.sweep := by
  unfold State.settle State.offerExpiry State.nextInSweep
  split
  · exact ⟨rfl, rfl⟩
  · simp only [h]
    split <;> exact ⟨by simp_all, rfl⟩

/-- In a sorted list the first entry beyond a key is the one whose position lies next beyond it. -/
theorem find_next {l : List (Position × ExpiryEntry)} (hl : l.Pairwise fun x y => x.1.key < y.1.key) {k : Nat} {x : Position}
    {e : ExpiryEntry} (hx : (x, e) ∈ l) (hk : k < x.key) (hmin : ∀ y ∈ l, k < y.1.key → x.key ≤ y.1.key) :
    l.find? (fun e => k < e.1.key) = some (x, e) := by
  induction l with
  | nil => cases hx
  | cons y l ih =>
    obtain ⟨hy, hl'⟩ := List.pairwise_cons.1 hl
    obtain heq | hx := List.mem_cons.1 hx
    · simp [← heq, hk]
    · have before := hy _ hx
      have passed : ¬k < y.1.key := fun h => absurd (hmin y (List.mem_cons_self ..) h) (Nat.not_le_of_lt before)
      rw [List.find?_cons_of_neg (by simpa using passed)]
      exact ih hl' hx fun z hz => hmin z (List.mem_cons_of_mem _ hz)

theorem nextInSweep_beyond {s : State} (hl : s.expiry.Pairwise fun x y => x.1.key < y.1.key) {x : Position} {e : ExpiryEntry}
    (hx : (x, e) ∈ s.expiry) (hk : s.sweep.key < x.key) (hmin : ∀ y ∈ s.expiry, s.sweep.key < y.1.key → x.key ≤ y.1.key) :
    s.nextInSweep = some x := by
  unfold State.nextInSweep
  rw [find_next hl hx hk hmin]

theorem nextInSweep_wraps {s : State} (hl : s.expiry.Pairwise fun x y => x.1.key < y.1.key) {x : Position} {e : ExpiryEntry}
    (hx : (x, e) ∈ s.expiry) (hk : ∀ y ∈ s.expiry, y.1.key ≤ s.sweep.key) (hmin : ∀ y ∈ s.expiry, x.key ≤ y.1.key) :
    s.nextInSweep = some x := by
  have none : s.expiry.find? (fun e => s.sweep.key < e.1.key) = none :=
    List.find?_eq_none.2 fun y hy => by simpa using hk y hy
  unfold State.nextInSweep
  rw [none]
  cases hs : s.expiry with
  | nil => rw [hs] at hx; cases hx
  | cons y l =>
    rw [hs] at hl hx hmin
    obtain rfl | hx := List.mem_cons.1 hx
    · rfl
    · exact absurd (hmin y (List.mem_cons_self ..)) (Nat.not_le_of_lt ((List.pairwise_cons.1 hl).1 _ hx))

/-- Settles O4: the Lease Monitor's next entry by the order of the list, and what each port's path presents by the list of R122. -/
theorem settlingFrame : Obligations.SettlingFrame := by
  unfold Obligations.SettlingFrame
  intro s
  refine ⟨settle_of_resetLow, ?frame, fun x => settle_sweep_of_offer, settle_sweep_of_empty, ?sweep, ?ports⟩
  case frame => obtain h | ⟨_, _, h⟩ := settle_cases s <;> rw [h]
  case sweep =>
    intro place high nothing sorted x e hx next
    have hplace : place = Position.key := by
      funext y
      obtain ⟨b, r⟩ := y
      cases r <;> rfl
    rw [hplace] at sorted next
    obtain ⟨beyond, least⟩ | ⟨behind, least⟩ := next
    · exact settle_sweep_of_next high nothing (nextInSweep_beyond sorted hx beyond least)
    · exact settle_sweep_of_next high nothing (nextInSweep_wraps sorted hx behind least)
  case ports =>
    intro p x e request
    have hrequest : ∀ b o what, request b o what = some (requestAt b o what) := fun b o what => by rw [requestAt_eq]
    refine ⟨fun r hr => ?_, fun high free => ⟨fun m run hm hrun => ?_, fun noRun => ⟨fun a ha waiting => ?_, fun noAccess => ?_⟩⟩⟩
    · obtain h | h := settle_port_cases s p
      · exact h
      · rw [h, present_of_path hr]
    · rw [settle_port_of_high high, hrequest]
      exact present_of_due free (by rw [copyWriteDue_of_run hm hrun]; rfl)
    · rw [settle_port_of_high high, hrequest]
      have due : x.engine.copyWriteDue.or x.accessDue = some (requestAt a.buffer a.offset a.kind.pathRequest) := by
        rw [copyWriteDue_of_no_run noRun, accessDue_of_waiting ha waiting]
        rfl
      refine (present_of_due free due).trans ?_
      cases a.kind <;> rfl
    · rw [settle_port_of_high high]
      have noDue : x.engine.copyWriteDue.or x.accessDue = none := by
        rw [copyWriteDue_of_no_run noRun, accessDue_of_not_waiting noAccess]
        rfl
      refine ⟨fun m => present_marked free noDue, fun m hm moving clear => ⟨fun r hr => ?_, fun hr => ?_⟩, present_idle free noDue⟩
      · refine (present_burst free noDue hm clear).trans ?_
        rw [hrequest]
        simp only [Engine.burstDue, show x.engine.bulk = some m from hm]
        simp [moving, clear, hr]
      · refine (present_burst free noDue hm clear).trans ?_
        rw [hrequest]
        simp only [Engine.burstDue, show x.engine.bulk = some m from hm]
        simp [moving, clear, hr]

end Sys2Proof.Machine
end

section
/-! The device's reset and power, accesses while an input is low, and the requests at their REQ write. -/

namespace Sys2Proof.Machine

/-! ## Device reset, power and the straps (R121, R158, R167) -/

theorem exec_resetFalling (s : State) : exec .resetFalling s = .next s.resetFalls :=
  congrArg Host.Outcome.next (settle_of_resetLow (s := s.resetFalls) rfl)

theorem exec_resetRising (s : State) (supen : Bool) (sup : Port) :
    exec (.resetRising supen sup) s =
      done (if s.resetLow then { s with resetLow := false, supen := supen, sup := sup } else s) := rfl

/-- Settles O7: the reset's own equation; /RESET is then low, so nothing settles. -/
theorem deviceReset : Obligations.DeviceReset := by
  unfold Obligations.DeviceReset
  refine ⟨⟨fun s => ⟨_, exec_resetFalling s, rfl, rfl, fun r => ?_, resetFalls_port s, ?_⟩, fun s supen sup low => ?_,
    fun s supen sup high => ?_⟩, fun _ => rfl⟩
  · exact congrArg RowState.epoch (vector_get_map s.rows (fun r => { age := 0, epoch := r.epoch + 1 }) r)
  · simp only [State.resetFalls, State.reset]
  · rw [exec_resetRising, if_pos low]
    rfl
  · rw [exec_resetRising, if_neg (by simp [high])]
    rfl

/-! ## Accesses while an input is low (R137, R167) -/

theorem busRead_low {s : State} {p : Port} (h : s.resetLow = true ∨ (s.port p).prstLow = true) (st : Strobe)
    (body : State → State) : s.busRead p st body = s.answerRead p st 0xFFFF#16 := by
  unfold State.busRead
  rw [if_pos (by simpa using h)]

theorem exec_busRead_low {c : Instr} {p : Port} {s : State} {st : Strobe} (hp : c.busPort = some p) (hr : c.busReads = some st)
    (h : s.resetLow = true ∨ (s.port p).prstLow = true) : exec c s = done (s.answerRead p st 0xFFFF#16) := by
  cases c with
  | windowRead | streamDataRead | note0Pop =>
    obtain rfl := Option.some.inj hp
    obtain rfl := Option.some.inj hr
    exact congrArg done (busRead_low h _ _)
  | _ => exact nomatch hr

theorem pirq_iff (s : State) (p : Port) :
    s.pirq p = true ↔ s.resetLow = false ∧ (s.port p).prstLow = false ∧
      (((s.port p).notes.records ≠ [] ∧ (s.port p).config.queueEnable = true) ∨
        ((s.port p).session.sessionChange = true ∧ (s.port p).config.sessionChangeEnable = true) ∨
        ((s.port p).session.refused = true ∧ (s.port p).config.refusedEnable = true) ∨
        ((s.port p).session.windowFault = true ∧ (s.port p).config.windowFaultEnable = true)) := by
  simp [State.pirq, PortState.flagInterrupt, and_assoc, or_assoc]

theorem streamEnd_mapped {x : PortState} {v : View} (h : x.streamWindow = .mapped v) :
    x.streamEnd = if x.stream.direction = .read then 2 * ((v.length + 1) / 2) else 512 := by
  unfold PortState.streamEnd
  rw [h]

/-- On a MAPPED window there is a word to move: the length word while it is due or one below the length, or one below 512 (R103). -/
theorem streamReady_mapped {x : PortState} {v : View} (h : x.streamWindow = .mapped v) :
    ((x.stream.direction == .read || v.mode == .rw) && x.streamReady) = true ↔
      (x.stream.direction = .read ∧ (x.stream.prefixDue = true ∨ x.stream.pointer < 2 * ((v.length + 1) / 2))) ∨
        (x.stream.direction = .write ∧ v.mode = .rw ∧ x.stream.pointer < 512) := by
  unfold PortState.streamReady
  rw [streamEnd_mapped h]
  cases x.stream.direction <;> simp

theorem pdreq_iff (s : State) (p : Port) :
    s.pdreq p = true ↔ s.resetLow = false ∧ (s.port p).prstLow = false ∧
      ∃ v, (s.port p).streamWindow = .mapped v ∧
        (((s.port p).stream.direction = .read ∧
            ((s.port p).stream.prefixDue = true ∨ (s.port p).stream.pointer < 2 * ((v.length + 1) / 2))) ∨
          ((s.port p).stream.direction = .write ∧ v.mode = .rw ∧ (s.port p).stream.pointer < 512)) := by
  unfold State.pdreq
  simp only [Bool.and_eq_true, Bool.not_eq_true', and_assoc]
  refine and_congr_right fun _ => and_congr_right fun _ => ?_
  cases h : (s.port p).streamWindow with
  | unmapped | stale => simp
  | mapped v => simpa using streamReady_mapped h

/-- Settles O8: the writes never begin, the reads answer without their body, and the pins are functions of the state. -/
theorem lowInputsDropAccesses : Obligations.LowInputsDropAccesses := by
  unfold Obligations.LowInputsDropAccesses
  refine ⟨fun c p s hp low => ⟨fun hr => ?_, fun hr => ?_, fun hr => ?_, fun addr => ?_⟩, fun p s => ⟨pirq_iff s p, pdreq_iff s p⟩⟩
  · have dropped : s.busReady p = false := by
      obtain low | low := low <;> simp [State.busReady, low]
    exact exec_busWrite_not_ready hp hr dropped
  · exact exec_busRead_low hp hr low
  · exact exec_busRead_low hp hr low
  · unfold State.registerRead
    rw [if_pos (by simpa using low)]

/-! ## REQ writes of known words (R24, R169) -/

theorem reqCodeOf_reqWordOf (c : ReqCode) (zero head : Bool) : reqCodeOf (lowByte (reqWordOf c zero head)) = some c := by
  cases c <;> cases zero <;> cases head <;> decide

theorem reqZero_reqWordOf (c : ReqCode) (zero head : Bool) : reqZero (reqWordOf c zero head) = zero := by
  cases c <;> cases zero <;> cases head <;> decide

theorem reqHead_reqWordOf (c : ReqCode) (zero head : Bool) : reqHead (reqWordOf c zero head) = head := by
  cases c <;> cases zero <;> cases head <;> decide

theorem reqReadBack_reqWordOf (c : ReqCode) (zero head : Bool) :
    reqReadBack (reqWordOf c zero head) = reqWordOf c zero head := by
  cases c <;> cases zero <;> cases head <;> decide

/-- A request's REQ write is the write of its word, and no such request is CANCEL. -/
theorem exec_written {p : Port} {c : ReqCode} {zero head : Bool} {i : Instr}
    (h : requestCommand p (.written zero head) c = some i) (s : State) :
    exec i s = done (s.reqWrite p (reqWordOf c zero head) bothLanes) ∧ c ≠ .cancel := by
  cases c with
  | cancel => exact nomatch h
  | _ =>
    obtain rfl := Option.some.inj h
    exact ⟨rfl, by decide⟩

section
variable {s : State} {p : Port} (ready : s.busReady p = true)
include ready

theorem reqWrite_idle (idle : (s.port p).engine.state = .idle) (hs : s.sessionState p ≠ .resetting) (w : Word) :
    s.reqWrite p w bothLanes = s.takeRequest p w := by
  simp [State.reqWrite, ready, bothLanes, idle, hs]

theorem reqWrite_cancel (running : (s.port p).engine.state ≠ .idle) (hs : s.sessionState p ≠ .resetting) {w : Word}
    (hw : reqCodeOf (lowByte w) = some .cancel) : s.reqWrite p w bothLanes = s.modEngine p Engine.cancelled := by
  simp [State.reqWrite, ready, bothLanes, running, hs, hw]

theorem reqWrite_running (running : (s.port p).engine.state ≠ .idle) {w : Word}
    (hw : reqCodeOf (lowByte w) ≠ some .cancel) : s.reqWrite p w bothLanes = s.setRefused p := by
  by_cases hs : s.sessionState p = .resetting
  · exact reqWrite_resetting ready hs (.inl rfl) w
  · simp [State.reqWrite, ready, bothLanes, running, hs, hw]

end

theorem takeRequest_admitted {s : State} {p : Port} {w : Word} {c : ReqCode} (hw : reqCodeOf (lowByte w) = some c)
    (ha : admits (s.sessionState p) c = true) (hc : c ≠ .cancel) : s.takeRequest p w = s.modEngine p fun e => e.taking w := by
  simp [State.takeRequest, hw, ha, hc, Work.start]

/-- A request that completes at its write leaves of it nothing but the REQ read-back. -/
theorem finish_complete_taking (s : State) (p : Port) (w : Word) (code : ResultCode) :
    ((Work.start (s.modEngine p fun e => e.taking w)).complete p code res0 false).finish =
      s.modPort p fun x =>
        ({ x with engine := { x.engine with reqWord := reqReadBack w } } : PortState).completes code res0 false := by
  rw [finish_complete rfl, start_state, modEngine_eq_modPort, modPort_modPort]
  rfl

theorem takeRequest_not_admitted {s : State} {p : Port} {w : Word} {c : ReqCode} (hw : reqCodeOf (lowByte w) = some c)
    (ha : admits (s.sessionState p) c = false) :
    s.takeRequest p w = s.modPort p fun x =>
      ({ x with engine := { x.engine with reqWord := reqReadBack w } } : PortState).completes .session res0 false := by
  rw [← finish_complete_taking]
  simp [State.takeRequest, hw, ha, Work.refuse]

theorem takeRequest_unknown {s : State} {p : Port} {w : Word} (hw : reqCodeOf (lowByte w) = none) :
    s.takeRequest p w = s.modPort p fun x =>
      ({ x with engine := { x.engine with reqWord := reqReadBack w } } : PortState).completes .badRequest res0 false := by
  rw [← finish_complete_taking]
  simp [State.takeRequest, hw, Work.refuse]

theorem takeRequest_cancel {s : State} {p : Port} {w : Word} (hw : reqCodeOf (lowByte w) = some .cancel)
    (ha : admits (s.sessionState p) .cancel = true) :
    s.takeRequest p w = s.modPort p fun x =>
      ({ x with engine := { x.engine with reqWord := reqReadBack w } } : PortState).completes .ok res0 false := by
  rw [← finish_complete_taking]
  simp [State.takeRequest, hw, ha]

/-- Settles O9: in IDLE the write of an admitted request goes through to the take. -/
theorem requestTaken : Obligations.RequestTaken := by
  unfold Obligations.RequestTaken
  intro p c zero head i s hi ready idle admitted
  obtain ⟨meaning, hc⟩ := exec_written hi s
  have running : s.sessionState p ≠ .resetting := fun h => by simp [h, admits] at admitted
  have code := reqCodeOf_reqWordOf c zero head
  rw [meaning, reqWrite_idle ready idle running, takeRequest_admitted code admitted hc]
  refine congrArg done (congrArg (s.modEngine p) (funext fun e => ?_))
  simp only [Engine.taking, code, reqZero_reqWordOf, reqHead_reqWordOf, reqReadBack_reqWordOf, Option.map_some]
  rfl

theorem admits_cancel_iff (x : SessionState) : admits x .cancel = true ↔ x = .active := by
  cases x <;> decide

/-- Settles O10: the three ways in which a take ends with the request's completion. -/
theorem completedAtTheWrite : Obligations.CompletedAtTheWrite := by
  unfold Obligations.CompletedAtTheWrite
  refine fun p s ready idle running => ⟨fun c zero head i hi refused => ?_, fun word unknown => ?_, fun zero head => ?_⟩
  · rw [(exec_written hi s).1, reqWrite_idle ready idle running,
      takeRequest_not_admitted (reqCodeOf_reqWordOf c zero head) refused, reqReadBack_reqWordOf]
    rfl
  · refine congrArg done ?_
    rw [reqWrite_idle ready idle running, takeRequest_unknown unknown]
    rfl
  · refine congrArg done ?_
    have code := reqCodeOf_reqWordOf .cancel zero head
    rw [reqWrite_idle ready idle running]
    by_cases active : s.sessionState p = .active
    · rw [takeRequest_cancel code ((admits_cancel_iff _).2 active), reqReadBack_reqWordOf, if_pos active]
    · have refused := Bool.eq_false_iff.2 (mt (admits_cancel_iff _).1 active)
      rw [takeRequest_not_admitted code refused, reqReadBack_reqWordOf, if_neg active]

/-! ## REQ writes while a request runs (R26, R34 to R36) -/

/-- An update of an engine that leaves it as it stands is none. -/
theorem modEngine_of_eq {s : State} {p : Port} {f g : Engine → Engine} (h : f (s.port p).engine = g (s.port p).engine) :
    s.modEngine p f = s.modEngine p g := modPort_congr s p (by rw [h])

theorem modEngine_id {s : State} {p : Port} {f : Engine → Engine} (h : f (s.port p).engine = (s.port p).engine) :
    s.modEngine p f = s := modPort_id s p (by rw [h])

theorem Engine.cancelled_without_bulk {e : Engine} (hs : e.state = .busy) (hb : e.bulk = none) : e.cancelled = e := by
  cases e
  subst hs hb
  rfl

/-- Settles O12: the last two branches of a REQ write, and CANCEL by the engine's state. -/
theorem reqWritesInProgress : Obligations.ReqWritesInProgress := by
  unfold Obligations.ReqWritesInProgress
  refine ⟨fun p s ready running => ⟨fun word hw => ?_, fun c zero head i hi => ?_⟩, fun p zero head s ready hs => ?_⟩
  · exact congrArg done (reqWrite_running ready running hw)
  · obtain ⟨meaning, hc⟩ := exec_written hi s
    rw [meaning, reqWrite_running ready running (by rw [reqCodeOf_reqWordOf]; simpa using hc)]
    rfl
  · have cancels : ∀ t, (s.port p).engine.state ≠ .idle → s.modEngine p Engine.cancelled = t →
        exec (.cancel p zero head) s = .next t.settle := by
      intro t running ht
      rw [← ht, ← reqWrite_cancel ready running hs (reqCodeOf_reqWordOf .cancel zero head)]
      rfl
    refine ⟨fun waiting timer => cancels _ (by simp [waiting]) ?_, fun waiting timer => cancels _ (by simp [waiting]) ?_,
      fun m busy hm => cancels _ (by simp [busy]) ?_, fun busy hm => cancels _ (by simp [busy]) ?_⟩
    · exact modEngine_of_eq (by simp [Engine.cancelled, waiting, Option.isSome_iff_ne_none.2 timer])
    · exact modEngine_id (by simp [Engine.cancelled, waiting, timer])
    · exact modEngine_of_eq (by simp [Engine.cancelled, busy, hm])
    · exact modEngine_id (Engine.cancelled_without_bulk busy hm)

end Sys2Proof.Machine
end

section
/-! The orders in which the arbiters grant: the ring of requesters, what each of them offers, and the ports and the refresh of a bank. -/

namespace Sys2Proof.Machine

/-! ## The first in a ring (R16, R125) -/

/-- What a search finds in a list along which a distance rises is the nearest of all that it could find. -/
theorem find_nearest {α : Type} {l : List α} {d : α → Nat} (hl : l.Pairwise fun x y => d x < d y) {f : α → Bool} {x y : α}
    (hx : l.find? f = some x) (hy : y ∈ l) (hf : f y = true) : d x ≤ d y := by
  induction l with
  | nil => cases hy
  | cons z l ih =>
    obtain ⟨hz, hl'⟩ := List.pairwise_cons.1 hl
    rw [List.find?_cons] at hx
    split at hx
    · obtain rfl := Option.some.inj hx
      obtain rfl | hy := List.mem_cons.1 hy
      · exact Nat.le_refl _
      · exact Nat.le_of_lt (hz y hy)
    · rename_i hfz
      obtain rfl | hy := List.mem_cons.1 hy
      · exact absurd hf (by simp [hfz])
      · exact ih hl' hx hy

/-- The places a requester is behind the one served last, in the ring of R16. -/
def ringDistance (from_ to_ : Requester) : Nat := (ring.idxOf to_ + 8 - ring.idxOf from_) % 9

theorem mem_ring (r : Requester) : r ∈ ring := by
  cases r with
  | re p => revert p; decide
  | tu p => revert p; decide
  | lm => decide

theorem mem_ringAfter (r q : Requester) : q ∈ ringAfter r := by
  have h : ring.take (ring.idxOf r + 1) ++ ring.drop (ring.idxOf r + 1) = ring := List.take_append_drop ..
  have hq := mem_ring q
  rw [← h] at hq
  exact List.mem_append.2 (List.mem_append.1 hq).symm

theorem ringAfter_rises (r : Requester) : (ringAfter r).Pairwise fun x y => ringDistance r x < ringDistance r y := by
  cases r with
  | re p => revert p; decide
  | tu p => revert p; decide
  | lm => decide

theorem tableChoice_high {s : State} (h : s.resetLow = false) :
    s.tableChoice = (ringAfter s.lastServed).find? fun r => (s.offer r).isSome := by
  simp [State.tableChoice, h]

theorem tableChoice_eq_none_iff {s : State} (h : s.resetLow = false) : s.tableChoice = none ↔ ∀ r, s.offer r = none := by
  rw [tableChoice_high h, List.find?_eq_none]
  simp [mem_ringAfter]

/-- The requester granted offers an operation, and is the nearest that does. -/
theorem tableChoice_nearest {s : State} {r : Requester} (h : s.tableChoice = some r) :
    s.offer r ≠ none ∧ ∀ q, s.offer q ≠ none → ringDistance s.lastServed r ≤ ringDistance s.lastServed q := by
  have high : s.resetLow = false := by
    by_contra low
    simp [State.tableChoice, low] at h
  rw [tableChoice_high high] at h
  have offers : (s.offer r).isSome = true := List.find?_some (p := fun r => (s.offer r).isSome) h
  refine ⟨Option.isSome_iff_ne_none.1 offers, fun q hq => ?_⟩
  exact find_nearest (ringAfter_rises _) h (mem_ringAfter _ q) (Option.isSome_iff_ne_none.2 hq)

/-! ## What a port's engine and its Teardown Unit offer (R20, R21, R139, R143) -/

theorem offer_re_running {s : State} {p : Port} (h : s.sessionState p ≠ .resetting) : s.offer (.re p) = (s.port p).engine.offer := by
  simp [State.offer, h]

theorem Engine.offer_waiting {e : Engine} (h : e.state = .waiting) :
    e.offer = if e.cancelMarker then some .cancel else if e.timer.isNone then some .timeout else none := by
  unfold Engine.offer
  rw [h]

theorem Engine.offer_moving {e : Engine} {m : Bulk} (h : e.state = .busy) (hm : e.bulk = some m) :
    e.offer = if m.stopped then some .endStep else none := by
  unfold Engine.offer
  rw [h, hm]

theorem Engine.offer_busy {e : Engine} (h : e.state = .busy) (hm : e.bulk = none) :
    e.offer =
      if e.claimed.isSome then some .zeroFillStart
      else if e.close.isSome then some .closeStep
      else e.request.bind fun r => if r.code.byTable then some (.request r.code) else none := by
  unfold Engine.offer
  rw [h, hm]
  cases e.request <;> rfl

/-- The unit's end step goes first: it owes it and the mover has stopped (R143; log 12). -/
def PortState.endsFirst (x : PortState) : Prop :=
  x.teardown.endOwed = true ∧ ∃ m o, x.engine.bulk = some m ∧ m.phase = .stopped o

theorem stopped_iff (m : Bulk) : m.stopped = true ↔ ∃ o, m.phase = .stopped o := by
  unfold Bulk.stopped
  split <;> simp_all

theorem endsFirst_iff (x : PortState) : (x.teardown.endOwed && x.engine.bulk.any Bulk.stopped) = true ↔ x.endsFirst := by
  simp [PortState.endsFirst, Option.any_eq_true, stopped_iff]

section
variable {x : PortState}

theorem teardownOffer_endsFirst (h : x.endsFirst)
    (hp : x.teardown.phase = .roles ∨ x.teardown.phase = .channels ∨ x.teardown.phase = .final) :
    x.teardownOffer = some .endStep := by
  have both := (endsFirst_iff x).2 h
  unfold PortState.teardownOffer
  obtain hp | hp | hp := hp <;> simp_all

theorem teardownOffer_of_not_endsFirst (h : ¬x.endsFirst) :
    x.teardownOffer = match x.teardown.phase with
      | .idle => none
      | .fence => some .fence
      | .roles => some .role
      | .channels => some .channel
      | .final => if x.teardown.endOwed then none else some .final := by
  have both := mt (endsFirst_iff x).1 h
  unfold PortState.teardownOffer
  cases x.teardown.phase <;> simp_all

end

/-! ## The order of a free bank (R125) -/

/-- The places a port is behind the one a bank granted last. -/
def portDistance (last p : Port) : Nat := (p.val + 3 - last.val) % 4

theorem mem_portsAfter (last p : Port) : p ∈ portsAfter last := by
  revert last p
  decide

theorem portsAfter_rises (last : Port) : (portsAfter last).Pairwise fun x y => portDistance last x < portDistance last y := by
  revert last
  decide

theorem portDistance_inj {last p q : Port} (h : portDistance last p = portDistance last q) : p = q := by
  revert last p q
  decide

theorem waitsAt_iff (s : State) (k : BankIx) (p : Port) :
    s.waitsAt k p = true ↔ ∃ r, (s.port p).path = some r ∧ r.bank = k := by
  simp [State.waitsAt, Option.any_eq_true]

section
variable {s : State} {k : BankIx}

theorem bankChoice_not_free (h : s.resetLow = true ∨ (s.arbiter k).current ≠ none) : s.bankChoice k = none := by
  have taken : (s.resetLow || (s.arbiter k).current.isSome) = true := by
    simpa [Option.isSome_iff_ne_none] using h
  unfold State.bankChoice
  rw [if_pos taken]

variable (high : s.resetLow = false) (free : (s.arbiter k).current = none)
include high free

theorem bankChoice_urgent (hd : (s.bankRefresh k).debt ≠ 0) (hu : s.urgentDebt ≤ (s.bankRefresh k).debt) :
    s.bankChoice k = some .refresh := by
  simp [State.bankChoice, high, free, State.refreshUrgent, State.refreshWaits, hd, hu]

theorem bankChoice_not_urgent (hd : (s.bankRefresh k).debt = 0 ∨ (s.bankRefresh k).debt < s.urgentDebt) :
    s.bankChoice k =
      match (portsAfter (s.arbiter k).lastPort).find? (s.waitsAt k) with
      | some p => some (.port p)
      | none => if s.refreshWaits k then some .refresh else none := by
  have calm : s.refreshUrgent k = false := by
    obtain hd | hd := hd
    · simp [State.refreshUrgent, State.refreshWaits, hd]
    · simp [State.refreshUrgent, hd]
  unfold State.bankChoice
  rw [if_neg (by simp [high, free]), calm]
  rfl

theorem bankChoice_port (hd : (s.bankRefresh k).debt = 0 ∨ (s.bankRefresh k).debt < s.urgentDebt) {p : Port}
    (hp : s.waitsAt k p = true)
    (hmin : ∀ q, s.waitsAt k q = true → portDistance (s.arbiter k).lastPort p ≤ portDistance (s.arbiter k).lastPort q) :
    s.bankChoice k = some (.port p) := by
  rw [bankChoice_not_urgent high free hd]
  cases hf : (portsAfter (s.arbiter k).lastPort).find? (s.waitsAt k) with
  | none => exact absurd hp (List.find?_eq_none.1 hf p (mem_portsAfter ..))
  | some q =>
    have nearest := find_nearest (portsAfter_rises _) hf (mem_portsAfter _ p) hp
    have same := portDistance_inj (Nat.le_antisymm nearest (hmin q (List.find?_some hf)))
    rw [same]

theorem bankChoice_nobody (hd : (s.bankRefresh k).debt = 0 ∨ (s.bankRefresh k).debt < s.urgentDebt)
    (hp : ∀ p, s.waitsAt k p = false) : s.bankChoice k = if (s.bankRefresh k).debt = 0 then none else some .refresh := by
  rw [bankChoice_not_urgent high free hd, List.find?_eq_none.2 fun p _ => by simp [hp p]]
  simp [State.refreshWaits]

end

/-- Settles O13: both arbiters search a list along which the distance in the ring rises; what is offered follows the states of R20 and
R139. -/
theorem grantOrders : Obligations.GrantOrders := by
  unfold Obligations.GrantOrders
  refine ⟨?ring, ?engine, ?teardown, ?monitor, ?bank⟩
  case ring =>
    intro ring distance s
    exact ⟨fun low => by simp [State.tableChoice, low], tableChoice_eq_none_iff, fun r => tableChoice_nearest⟩
  case engine =>
    intro s p e offers
    refine ⟨fun resetting => by simp [offers, State.offer, resetting], fun running => ?_⟩
    simp only [offers, offer_re_running running]
    refine ⟨fun idle => by rw [Engine.offer, idle], fun waiting => ?_, fun busy => ?_⟩
    · rw [Engine.offer_waiting waiting]
      exact ⟨fun h => by simp [e, h], fun h ht => by simp [e, h, ht], fun h ht => by simp [e, h, ht]⟩
    · refine ⟨fun m o hm ho => ?_, fun m hm ho => ?_, fun hm => ?_⟩
      · rw [Engine.offer_moving busy hm, if_pos ((stopped_iff m).2 ⟨o, ho⟩)]
      · rw [Engine.offer_moving busy hm, Bulk.stopped, ho]
        rfl
      · rw [Engine.offer_busy busy hm]
        refine ⟨fun hc => by rw [if_pos (Option.isSome_iff_ne_none.2 hc)], fun hc hg => ?_, fun hc hg => ⟨fun hr => ?_, fun r hr => ?_⟩⟩
        · rw [if_neg (by simp [hc]), if_pos (Option.isSome_iff_ne_none.2 hg)]
        · simp [hc, hg, hr]
        · simp only [hc, hg, hr, Option.isSome_none, Bool.false_eq_true, if_false, Option.bind_some]
          cases r.code <;> simp [ReqCode.byTable]
  case teardown =>
    intro s p t offers endsFirst
    refine ⟨fun h => ?_, fun h => ?_, fun h first => teardownOffer_endsFirst first h, fun last => ?_⟩
    · simp only [offers, State.offer, PortState.teardownOffer, show (s.port p).teardown.phase = _ from h]
    · simp only [offers, State.offer, PortState.teardownOffer, show (s.port p).teardown.phase = _ from h]
    · simp only [offers, State.offer, teardownOffer_of_not_endsFirst last]
      exact ⟨fun h => by rw [h], fun h => by rw [h], fun h owed => by rw [h]; exact if_pos owed,
        fun h owed => by rw [h]; exact if_neg (by simpa using owed)⟩
  case monitor =>
    intro s
    refine ⟨fun h => by simp [State.offer, h], fun h => ?_⟩
    exact if_pos (Option.isSome_iff_ne_none.2 h)
  case bank =>
    refine fun s k => ⟨bankChoice_not_free, fun high free => ?_⟩
    intro debt waits distance
    refine ⟨bankChoice_urgent high free, fun calm => ⟨fun p hp hmin => ?_, fun hp => ?_⟩⟩
    · exact bankChoice_port high free calm ((waitsAt_iff ..).2 hp) fun q hq => hmin q ((waitsAt_iff ..).1 hq)
    · exact bankChoice_nobody high free calm fun p => Bool.eq_false_iff.2 fun h => hp p ((waitsAt_iff ..).1 h)

end Sys2Proof.Machine
end

section
/-! Operations that owe records at their end: what an operation over `Work` comes to as an operation over `State`, once the records
it owes are placed. Placing touches the queues alone, so it commutes with every update that leaves queues and session states as they
are, and with completions: an operation's records are as if each completion placed its own. -/

namespace Sys2Proof.Machine

/-! ## Placing commutes with what leaves the queues alone -/

@[simp] theorem place_setFreeList (s : State) (l : List BufIx) (p : Port) (r : Record) :
    (s.setFreeList l).place p r = (s.place p r).setFreeList l := by
  by_cases h : s.sessionState p = .detached
  · rw [place_detached h, place_detached (s := s.setFreeList l) h]
  · rw [place_attached h, place_attached (s := s.setFreeList l) h]; rfl

@[simp] theorem place_setClaimWait (s : State) (l : List Port) (p : Port) (r : Record) :
    (s.setClaimWait l).place p r = (s.place p r).setClaimWait l := by
  by_cases h : s.sessionState p = .detached
  · rw [place_detached h, place_detached (s := s.setClaimWait l) h]
  · rw [place_attached h, place_attached (s := s.setClaimWait l) h]; rfl

@[simp] theorem place_buf (s : State) (p : Port) (r : Record) (b : BufIx) : (s.place p r).buf b = s.buf b := by
  rw [State.buf, State.buf, place_buffers]

@[simp] theorem place_chan (s : State) (p : Port) (r : Record) (c : ChanIx) : (s.place p r).chan c = s.chan c := by
  rw [State.chan, State.chan, place_channels]

theorem place_modBuf (s : State) (b : BufIx) (f : BufRec → BufRec) (p : Port) (r : Record) :
    (s.modBuf b f).place p r = (s.place p r).modBuf b f := by
  by_cases h : s.sessionState p = .detached
  · rw [place_detached h, place_detached (s := s.modBuf b f) h]
  · rw [place_attached h, place_attached (s := s.modBuf b f) h]; rfl

theorem place_modChan (s : State) (c : ChanIx) (f : Chan → Chan) (p : Port) (r : Record) :
    (s.modChan c f).place p r = (s.place p r).modChan c f := by
  by_cases h : s.sessionState p = .detached
  · rw [place_detached h, place_detached (s := s.modChan c f) h]
  · rw [place_attached h, place_attached (s := s.modChan c f) h]; rfl

/-- A port update that neither reads nor changes the queue, and leaves the session state. -/
structure NotesApart (f : PortState → PortState) : Prop where
  notes : ∀ x n, f { x with notes := n } = { f x with notes := n }
  session : ∀ x, (f x).session.state = x.session.state

theorem NotesApart.keeps {f : PortState → PortState} (h : NotesApart f) (x : PortState) : (f x).notes = x.notes := by
  conv_lhs => rw [show x = { x with notes := x.notes } from rfl, h.notes]

theorem sessionState_modPort (s : State) (p q : Port) {f : PortState → PortState} (hf : ∀ x, (f x).session.state = x.session.state) :
    (s.modPort p f).sessionState q = s.sessionState q := by
  unfold State.sessionState
  rw [port_modPort]
  split
  · exact hf _
  · rfl

theorem place_modPort {f : PortState → PortState} (hf : NotesApart f) (s : State) (q p : Port) (r : Record) :
    (s.modPort q f).place p r = (s.place p r).modPort q f := by
  have same := sessionState_modPort s q p hf.session
  by_cases h : s.sessionState p = .detached
  · rw [place_detached h, place_detached (same.trans h)]
  · rw [place_attached h, place_attached fun e => h (same.symm.trans e)]
    by_cases hpq : p = q
    · subst hpq
      rw [modPort_modPort, modPort_modPort]
      refine modPort_congr _ _ ?_
      exact (congrArg (fun n : NoteQueue => { f (s.port p) with notes := n.hand r }) (hf.keeps _)).trans (hf.notes _ _).symm
    · exact modPort_comm s (Ne.symm hpq) f _

/-! ## The end of an operation -/

/-- Records placed in order. -/
theorem finish_induct {P : State → Prop} {w : Work} (h : P w.state) (hP : ∀ s p r, P s → P (s.place p r)) : P w.finish := by
  have all : ∀ (l : List (Port × Record)) (s : State), P s → P (l.foldl (fun s n => s.place n.1 n.2) s) := by
    intro l
    induction l with
    | nil => exact fun _ hs => hs
    | cons n l ih => exact fun s hs => ih _ (hP s n.1 n.2 hs)
  exact all _ _ h

section
variable (w : Work)

@[simp] theorem finish_buffers : w.finish.buffers = w.state.buffers :=
  finish_induct (P := fun t => t.buffers = w.state.buffers) rfl fun _ _ _ h => (place_buffers ..).trans h
@[simp] theorem finish_channels : w.finish.channels = w.state.channels :=
  finish_induct (P := fun t => t.channels = w.state.channels) rfl fun _ _ _ h => (place_channels ..).trans h
@[simp] theorem finish_claimWait : w.finish.claimWait = w.state.claimWait :=
  finish_induct (P := fun t => t.claimWait = w.state.claimWait) rfl fun _ _ _ h => (place_claimWait ..).trans h
@[simp] theorem finish_freeList : w.finish.freeList = w.state.freeList :=
  finish_induct (P := fun t => t.freeList = w.state.freeList) rfl fun _ _ _ h => (place_freeList ..).trans h

@[simp] theorem finish_buf (b : BufIx) : w.finish.buf b = w.state.buf b := by rw [State.buf, State.buf, finish_buffers]
@[simp] theorem finish_chan (c : ChanIx) : w.finish.chan c = w.state.chan c := by rw [State.chan, State.chan, finish_channels]

/-- The records owed change a port's queue alone. -/
theorem finish_port_frame (p : Port) : ∃ n, w.finish.port p = { w.state.port p with notes := n } := by
  refine finish_induct (P := fun t => ∃ n, t.port p = { w.state.port p with notes := n }) ⟨_, rfl⟩ fun s q r h => ?_
  obtain ⟨n, hn⟩ := h
  obtain ⟨m, hm⟩ := place_port_frame s q p r
  exact ⟨m, by rw [hm, hn]⟩

@[simp] theorem finish_port_session (p : Port) : (w.finish.port p).session = (w.state.port p).session := by
  obtain ⟨_, h⟩ := finish_port_frame w p
  rw [h]
@[simp] theorem finish_port_engine (p : Port) : (w.finish.port p).engine = (w.state.port p).engine := by
  obtain ⟨_, h⟩ := finish_port_frame w p
  rw [h]
@[simp] theorem finish_belowQuota (p : Port) : w.finish.belowQuota p = w.state.belowQuota p := by
  obtain ⟨_, h⟩ := finish_port_frame w p
  rw [State.belowQuota, State.belowQuota, h]

end

theorem finish_map {w : Work} {f : State → State} (hf : ∀ s p r, (f s).place p r = f (s.place p r)) :
    (w.map f).finish = f w.finish := by
  have all : ∀ (l : List (Port × Record)) (s : State),
      l.foldl (fun s n => s.place n.1 n.2) (f s) = f (l.foldl (fun s n => s.place n.1 n.2) s) := by
    intro l
    induction l with
    | nil => exact fun _ => rfl
    | cons n l ih => exact fun s => by rw [List.foldl_cons, List.foldl_cons, hf, ih]
  exact all _ _

theorem notesApart_engine (f : Engine → Engine) : NotesApart fun x => { x with engine := f x.engine } :=
  ⟨fun _ _ => rfl, fun _ => rfl⟩

theorem finish_map_modEngine (w : Work) (p : Port) (f : Engine → Engine) :
    (w.map fun s => s.modEngine p f).finish = w.finish.modEngine p f :=
  finish_map fun s q r => place_modPort (notesApart_engine f) s p q r

theorem finish_concat (s : State) (l : List (Port × Record)) (n : Port × Record) :
    (Work.finish { state := s, owed := l ++ [n] }) = (Work.finish { state := s, owed := l }).place n.1 n.2 := List.foldl_concat ..

/-- A completion: its record is placed last, whatever was owed before it. -/
theorem finish_completes (w : Work) (p : Port) (c : ResultCode) (r : Vector Word 4) (long : Bool) :
    (w.complete p c r long).finish = w.finish.modPort p fun x => x.completes c r long := by
  have engine : (Work.finish { state := w.state.modEngine p fun e => e.completed c r, owed := w.owed }) =
      w.finish.modEngine p fun e => e.completed c r := finish_map_modEngine w p _
  obtain ⟨n, port⟩ := finish_port_frame w p
  unfold Work.complete
  simp only
  split
  · rename_i due
    rw [finish_concat, engine, modEngine_eq_modPort]
    have session : (w.finish.modPort p fun x => { x with engine := x.engine.completed c r }).sessionState p =
        (w.state.port p).session.state := by
      rw [State.sessionState, port_modPort_same, finish_port_session]
    by_cases det : (w.state.port p).session.state = .detached
    · rw [place_detached (session.trans det)]
      exact modPort_congr _ _ (by simp [PortState.completes, det])
    · rw [place_attached (session ▸ det), modPort_modPort]
      exact modPort_congr _ _ (by simp [PortState.completes, det, due, port])
  · rename_i due
    rw [engine, modEngine_eq_modPort]
    exact modPort_congr _ _ (by simp [PortState.completes, due, port])

theorem finish_map_modBuf (w : Work) (b : BufIx) (f : BufRec → BufRec) : (w.map fun s => s.modBuf b f).finish = w.finish.modBuf b f :=
  finish_map fun s p r => place_modBuf s b f p r

/-! ## A claim waiter is handed a buffer (R8, R9) -/

@[simp] theorem sessionState_place (s : State) (p q : Port) (r : Record) : (s.place p r).sessionState q = s.sessionState q := by
  obtain ⟨n, h⟩ := place_port_frame s p q r
  rw [State.sessionState, State.sessionState, h]

theorem place_session (s : State) (p q : Port) (r : Record) : ((s.place p r).port q).session = (s.port q).session := by
  obtain ⟨n, h⟩ := place_port_frame s p q r
  rw [h]

theorem place_raiseCharge (s : State) (q p : Port) (r : Record) : (s.raiseCharge q).place p r = (s.place p r).raiseCharge q :=
  place_modPort (f := fun x => { x with charge := x.charge + 1 }) ⟨fun _ _ => rfl, fun _ => rfl⟩ s q p r

/-- The hand-out of a buffer reads the port's policy alone, so it commutes with the records. -/
theorem place_handOut (s : State) (q : Port) (b : BufIx) (p : Port) (r : Record) :
    (s.handOut q b).place p r = (s.place p r).handOut q b := by
  unfold State.handOut
  rw [place_raiseCharge, place_modBuf, place_session]

/-- What a hand-out's CLAIM comes to in its port, once its charge has risen. -/
def PortState.claimEnds (x : PortState) (h : Word) (long : Bool) : PortState :=
  if x.engine.claimsZero then
    { x with engine := { x.engine with state := .busy, claimed := some h, timer := none, cancelMarker := false } }
  else x.completes .ok (res4 h 0 0 0) long

theorem claimEnds_raised (x : PortState) (h : Word) (long : Bool) :
    ({ x with charge := x.charge + 1 } : PortState).claimEnds h long = x.givenBuffer h long := rfl

theorem finish_claimGiven (w : Work) (p : Port) (b : BufIx) (long : Bool) :
    (w.claimGiven p b long).finish = w.finish.modPort p fun x => x.claimEnds (handleOf (w.state.buf b).generation b) long := by
  unfold Work.claimGiven
  split
  · rename_i zero
    refine (finish_map_modEngine w p fun e =>
      { e with state := .busy, claimed := some (w.state.handle b), timer := none, cancelMarker := false }).trans
        (modPort_congr _ _ ?_)
    rw [PortState.claimEnds, finish_port_engine, if_pos zero]
    rfl
  · rename_i zero
    rw [finish_completes]
    refine modPort_congr _ _ ?_
    rw [PortState.claimEnds, finish_port_engine, if_neg zero]
    rfl

/-- Serving a claim waiter hands it the buffer. -/
theorem finish_serveClaim (w : Work) (q : Port) (b : BufIx) :
    (w.serveClaim q b).finish = w.finish.handsTo q b := by
  unfold Work.serveClaim
  rw [finish_claimGiven, finish_map fun s p r => by rw [place_setClaimWait, place_claimWait, place_handOut]]
  unfold State.handsTo State.handOut State.raiseCharge
  simp only [map_state, modPort_setClaimWait_comm, modBuf_setClaimWait_comm, modPort_modPort, buf_modPort, buf_modBuf_same,
    buf_setClaimWait, claimEnds_raised, finish_claimWait, finish_buf, BufRec.handedTo]

theorem handsTo_claimWait (s : State) (q : Port) (b : BufIx) : (s.handsTo q b).claimWait = s.claimWait.erase q := rfl

theorem finish_enterFree (w : Work) (b : BufIx) :
    (w.enterFree b).finish = w.finish.entersFree b := by
  have freed := finish_map_modBuf w b BufRec.freed
  have waiters : (w.map fun s => s.modBuf b BufRec.freed).state.claimWait.find?
      (w.map fun s => s.modBuf b BufRec.freed).state.belowQuota = w.finish.claimWait.find? w.finish.belowQuota := by
    rw [finish_claimWait, show w.finish.belowQuota = w.state.belowQuota from funext (finish_belowQuota w)]
    rfl
  unfold Work.enterFree State.entersFree
  simp only
  rw [waiters]
  cases w.finish.claimWait.find? w.finish.belowQuota with
  | some q =>
    dsimp only
    rw [finish_serveClaim, freed]
    rfl
  | none =>
    dsimp only
    rw [finish_map fun s p r => by rw [place_setFreeList, place_freeList], freed]
    rfl

theorem finish_lastUse (w : Work) (b : BufIx) :
    (w.lastUse b).finish = w.finish.lastUsed b := by
  have rule : ((w.state.buf b).unused && (w.state.buf b).bulkCount == 0) = true ↔
      (w.finish.buf b).holder = none ∧ (w.finish.buf b).readers = [] ∧ (w.finish.buf b).pending = 0 ∧
        (w.finish.buf b).bulkCount = 0 := by
    rw [finish_buf]
    simp [BufRec.unused, and_assoc]
  unfold Work.lastUse State.lastUsed
  simp only [rule]
  split
  · exact finish_enterFree w b
  · rfl

/-! ## Claim service (R9) -/

theorem serveClaim_freeList (w : Work) (q : Port) (b : BufIx) : (w.serveClaim q b).state.freeList = w.state.freeList := by
  unfold Work.serveClaim Work.claimGiven
  split <;> rfl

theorem serveClaim_port_other (w : Work) {p q : Port} (hpq : p ≠ q) (b : BufIx) :
    (w.serveClaim q b).state.port p = w.state.port p := by
  unfold Work.serveClaim
  rw [claimGiven_port_other _ hpq]
  exact handOut_port_other w.state hpq b

theorem handsTo_setFreeList (s : State) (q : Port) (b : BufIx) (l : List BufIx) :
    (s.handsTo q b).setFreeList l = (s.setFreeList l).handsTo q b := rfl

theorem foldl_handsTo_setFreeList (l : List (Port × BufIx)) (s : State) (f : List BufIx) :
    (l.foldl (fun t x => t.handsTo x.1 x.2) s).setFreeList f = l.foldl (fun t x => t.handsTo x.1 x.2) (s.setFreeList f) := by
  induction l generalizing s with
  | nil => rfl
  | cons x l ih => rw [List.foldl_cons, List.foldl_cons, ih, handsTo_setFreeList]

/-- One waiter's turn in claim service. -/
def Work.serveTurn (w : Work) (q : Port) : Work :=
  if w.state.belowQuota q then
    match w.state.freeList with
    | [] => w
    | b :: rest => (w.map fun s => s.setFreeList rest).serveClaim q b
  else w

theorem claimService_eq_foldl (w : Work) : w.claimService = w.state.claimWait.foldl Work.serveTurn w := rfl

/-- The turns of distinct waiters: those below their quotas get the Free List's buffers, one each. -/
theorem finish_serveTurns (l : List Port) (w : Work) (hl : l.Nodup) :
    (l.foldl Work.serveTurn w).finish =
      ((l.filter w.state.belowQuota).zip w.state.freeList).foldl (fun t x => t.handsTo x.1 x.2)
        (w.finish.setFreeList (w.state.freeList.drop ((l.filter w.state.belowQuota).zip w.state.freeList).length)) := by
  induction l generalizing w with
  | nil =>
    simp only [List.foldl_nil, List.filter_nil, List.zip_nil_left, List.length_nil, List.drop_zero]
    rw [← finish_freeList w]
    rfl
  | cons q l ih =>
    obtain ⟨hq, hl'⟩ := List.nodup_cons.1 hl
    rw [List.foldl_cons]
    by_cases below : w.state.belowQuota q = true
    · cases hf : w.state.freeList with
      | nil =>
        have turn : w.serveTurn q = w := by simp [Work.serveTurn, below, hf]
        rw [turn, ih w hl', hf]
        simp
      | cons b rest =>
        have turn : w.serveTurn q = (w.map fun s => s.setFreeList rest).serveClaim q b := by simp [Work.serveTurn, below, hf]
        have quota : ∀ r ∈ l, (w.serveTurn q).state.belowQuota r = w.state.belowQuota r := by
          intro r hr
          rw [turn, State.belowQuota, serveClaim_port_other _ (fun e : r = q => hq (e ▸ hr))]
          rfl
        have free : (w.serveTurn q).state.freeList = rest := by rw [turn, serveClaim_freeList]; rfl
        have done : (w.serveTurn q).finish = (w.finish.setFreeList rest).handsTo q b := by
          rw [turn, finish_serveClaim,
            finish_map fun s p r => by rw [place_setFreeList]]
        rw [ih _ hl', List.filter_congr quota, free, done, List.filter_cons_of_pos below, List.zip_cons_cons,
          List.foldl_cons, List.length_cons, List.drop_succ_cons, handsTo_setFreeList]
        rfl
    · have turn : w.serveTurn q = w := by simp [Work.serveTurn, below]
      rw [turn, ih w hl', List.filter_cons_of_neg below]

theorem finish_claimService {w : Work} (hn : w.state.claimWait.Nodup) :
    w.claimService.finish = w.finish.claimServed := by
  rw [claimService_eq_foldl, finish_serveTurns _ w hn]
  unfold State.claimServed
  rw [finish_claimWait, finish_freeList, show w.finish.belowQuota = w.state.belowQuota from funext (finish_belowQuota w)]

/-! ## Take service (R57, R59) -/

@[simp] theorem port_addReader_session (s : State) (p q : Port) (b : BufIx) : ((s.addReader p b).port q).session = (s.port q).session := by
  unfold State.addReader State.raiseCharge
  rw [port_modPort]
  split <;> rfl

theorem place_addReader (s : State) (q : Port) (b : BufIx) (p : Port) (r : Record) :
    (s.addReader q b).place p r = (s.place p r).addReader q b := by
  unfold State.addReader
  rw [place_raiseCharge, place_modBuf, place_session]

theorem place_leaveQueue (s : State) (c : ChanIx) (b : BufIx) (p : Port) (r : Record) :
    (s.leaveQueue c b).place p r = (s.place p r).leaveQueue c b := by
  unfold State.leaveQueue
  rw [place_modBuf, place_modChan]

theorem place_leaveTakeWait (s : State) (c : ChanIx) (q : Port) (p : Port) (r : Record) :
    (s.leaveTakeWait c q).place p r = (s.place p r).leaveTakeWait c q := place_modChan ..

end Sys2Proof.Machine
end

section
/-! The granted requests with a handle: what each checks and what it does (R5, R37 to R42, R83, R87, R106, R107). -/

namespace Sys2Proof.Machine

/-! ## A granted table request -/

section
variable {s : State} {p : Port}

theorem exec_claim_granted (h : s.grants (.re p) (.request .claim) = true) :
    exec (.claim p .carriedOut) s = .next (((Work.start (s.served (.re p))).claim p).finish).settle :=
  congrArg done (tableRequest_granted h _)
theorem exec_release_granted (h : s.grants (.re p) (.request .release) = true) :
    exec (.release p .carriedOut) s = .next (((Work.start (s.served (.re p))).release p).finish).settle :=
  congrArg done (tableRequest_granted h _)
theorem exec_adopt_granted (h : s.grants (.re p) (.request .adopt) = true) :
    exec (.adopt p .carriedOut) s = .next (((Work.start (s.served (.re p))).adopt p).finish).settle :=
  congrArg done (tableRequest_granted h _)
theorem exec_renew_granted (h : s.grants (.re p) (.request .renew) = true) :
    exec (.renew p .carriedOut) s = .next (((Work.start (s.served (.re p))).renew p).finish).settle :=
  congrArg done (tableRequest_granted h _)
theorem exec_query_granted (h : s.grants (.re p) (.request .query) = true) :
    exec (.query p .carriedOut) s = .next (((Work.start (s.served (.re p))).query p).finish).settle :=
  congrArg done (tableRequest_granted h _)
theorem exec_post_granted (h : s.grants (.re p) (.request .post) = true) :
    exec (.post p .carriedOut) s = .next (((Work.start (s.served (.re p))).post p).finish).settle :=
  congrArg done (tableRequest_granted h _)
theorem exec_map_granted (h : s.grants (.re p) (.request .map) = true) :
    exec (.map p .carriedOut) s = .next (((Work.start (s.served (.re p))).map' p).finish).settle :=
  congrArg done (tableRequest_granted h _)
theorem exec_fill_granted (h : s.grants (.re p) (.request .fill) = true) :
    exec (.fill p .carriedOut) s = .next (((Work.start (s.served (.re p))).fill p).finish).settle :=
  congrArg done (tableRequest_granted h _)
theorem exec_copy_granted (h : s.grants (.re p) (.request .copy) = true) :
    exec (.copy p .carriedOut) s = .next (((Work.start (s.served (.re p))).copy p).finish).settle :=
  congrArg done (tableRequest_granted h _)

end

/-- A granted operation that comes to a refusal answers its code and changes nothing else. -/
theorem answers_of_refuse {s : State} {p : Port} {e : ResultCode} {w : Work} {o : Host.Outcome State Fault Refusal}
    (h : o = .next w.finish.settle) (hw : w = (Work.start (s.served (.re p))).refuse p e) :
    o = .next (s.answered p e).settle := by
  rw [h, hw, finish_refuse]

/-! ## The handle check (R5) -/

theorem handleIx_eq (h : Word) : handleIx h = Fin.ofNat 256 (h.toNat % 256) := by
  apply Fin.ext
  simp [handleIx]

section
variable {s : State} {h : Word}

theorem checkHandle_range (hv : h.getLsbD 15 = false) : s.checkHandle h = some .range := by
  unfold State.checkHandle handleValid
  rw [hv]
  rfl

theorem checkHandle_stale (hv : h.getLsbD 15 = true)
    (hg : h.extractLsb' 8 7 ≠ (s.buf (Fin.ofNat 256 (h.toNat % 256))).generation) : s.checkHandle h = some .staleHandle := by
  have differ : handleGen h ≠ (s.buf (handleIx h)).generation := handleIx_eq h ▸ hg
  unfold State.checkHandle handleValid
  rw [hv, if_neg (by simp), if_pos differ]

theorem checkHandle_none_iff : s.checkHandle h = none ↔
    h.getLsbD 15 = true ∧ h.extractLsb' 8 7 = (s.buf (Fin.ofNat 256 (h.toNat % 256))).generation := by
  rw [← handleIx_eq]
  unfold State.checkHandle handleValid handleGen
  cases h.getLsbD 15 <;> simp

end

section
variable {w : Work} {p : Port} {e : ResultCode}

theorem release_of_bad (h : w.state.checkHandle (w.state.operand p 0) = some e) : w.release p = w.refuse p e := by
  unfold Work.release
  simp only [h]
theorem query_of_bad (h : w.state.checkHandle (w.state.operand p 0) = some e) : w.query p = w.refuse p e := by
  unfold Work.query
  simp only [h]
theorem renew_of_bad (h : w.state.checkHandle (w.state.operand p 0) = some e) : w.renew p = w.refuse p e := by
  unfold Work.renew
  simp only [h]

theorem adopt_of_refusal (h : w.state.adoptRefusal p = some e) : w.adopt p = w.refuse p e := by
  unfold Work.adopt
  simp only [h]
theorem post_of_refusal (h : w.state.postRefusal p = some e) : w.post p = w.refuse p e := by
  unfold Work.post
  simp only [h]
theorem map_of_refusal (h : w.state.mapRefusal p = some e) : w.map' p = w.refuse p e := by
  unfold Work.map'
  simp only [h]
theorem fill_of_refusal (h : w.state.fillRefusal p = some e) : w.fill p = w.refuse p e := by
  unfold Work.fill
  simp only [h]
theorem copy_of_refusal (h : w.state.copyRefusal p = some e) : w.copy p = w.refuse p e := by
  unfold Work.copy
  simp only [h]

end

section
variable {s : State} {p : Port} {e : ResultCode}

theorem adoptRefusal_of_bad (h : s.checkHandle (s.operand p 0) = some e) : s.adoptRefusal p = some e := by
  unfold State.adoptRefusal
  simp only [h]
theorem postRefusal_of_bad (h : s.checkHandle (s.operand p 0) = some e) : s.postRefusal p = some e := by
  unfold State.postRefusal
  simp only [h]
theorem mapRefusal_of_bad (h : s.checkHandle (s.operand p 0) = some e) : s.mapRefusal p = some e := by
  unfold State.mapRefusal
  simp only [h]
theorem fillRefusal_of_bad (h : s.checkHandle (s.operand p 0) = some e) : s.fillRefusal p = some e := by
  unfold State.fillRefusal
  simp only [h]

/-- A request with a handle that fails its check. -/
theorem exec_of_badHandle {c : ReqCode} {i : Instr}
    (hc : c = .release ∨ c = .adopt ∨ c = .renew ∨ c = .query ∨ c = .post ∨ c = .map ∨ c = .fill)
    (hi : requestCommand p .carriedOut c = some i) (hg : s.grants (.re p) (.request c) = true)
    (h : s.checkHandle (s.operand p 0) = some e) : exec i s = .next (s.answered p e).settle := by
  rcases hc with rfl | rfl | rfl | rfl | rfl | rfl | rfl <;> cases hi
  · exact answers_of_refuse (exec_release_granted hg) (release_of_bad h)
  · exact answers_of_refuse (exec_adopt_granted hg) (adopt_of_refusal (adoptRefusal_of_bad h))
  · exact answers_of_refuse (exec_renew_granted hg) (renew_of_bad h)
  · exact answers_of_refuse (exec_query_granted hg) (query_of_bad h)
  · exact answers_of_refuse (exec_post_granted hg) (post_of_refusal (postRefusal_of_bad h))
  · exact answers_of_refuse (exec_map_granted hg) (map_of_refusal (mapRefusal_of_bad h))
  · exact answers_of_refuse (exec_fill_granted hg) (fill_of_refusal (fillRefusal_of_bad h))

theorem exec_copy_of_refusal (hg : s.grants (.re p) (.request .copy) = true) (h : s.copyRefusal p = some e) :
    exec (.copy p .carriedOut) s = .next (s.answered p e).settle :=
  answers_of_refuse (exec_copy_granted hg) (copy_of_refusal h)

theorem copyRefusal_of_bad (h : s.checkHandles (s.operand p 0) (s.operand p 2) = some e) : s.copyRefusal p = some e := by
  unfold State.copyRefusal
  simp only [h]

theorem checkHandles_of_source {h h' : Word} (bad : s.checkHandle h = some e) : s.checkHandles h h' = some e := by
  simp [State.checkHandles, bad]

theorem checkHandles_of_destination {h h' : Word} (good : s.checkHandle h = none) : s.checkHandles h h' = s.checkHandle h' := by
  simp [State.checkHandles, good]

end

/-- Settles O14: a handle without its marker is answered RANGE and one of another generation STALE_HANDLE before anything else is
looked at; COPY checks its source, and then its destination. -/
theorem handleCheckedFirst : Obligations.HandleCheckedFirst := by
  unfold Obligations.HandleCheckedFirst
  refine fun p s => ⟨fun c i hc hi hg => ⟨fun hv => ?_, fun hv hne => ?_⟩, fun hg => ⟨fun hv => ?_, fun hs => ?_, fun hc hv => ?_,
    fun hc hs => ?_⟩⟩
  · exact exec_of_badHandle hc hi hg (checkHandle_range hv)
  · exact exec_of_badHandle hc hi hg (checkHandle_stale hv hne)
  · exact exec_copy_of_refusal hg (copyRefusal_of_bad (checkHandles_of_source (checkHandle_range hv)))
  · exact exec_copy_of_refusal hg (copyRefusal_of_bad (checkHandles_of_source (checkHandle_stale hs.1 hs.2)))
  · exact exec_copy_of_refusal hg (copyRefusal_of_bad
      ((checkHandles_of_destination (checkHandle_none_iff.2 hc)).trans (checkHandle_range hv)))
  · exact exec_copy_of_refusal hg (copyRefusal_of_bad
      ((checkHandles_of_destination (checkHandle_none_iff.2 hc)).trans (checkHandle_stale hs.1 hs.2)))

/-! ## CLAIM (R37, R38) -/

theorem belowQuota_iff (s : State) (p : Port) : s.belowQuota p = true ↔ (s.port p).charge < (s.port p).quota := by
  simp [State.belowQuota]

theorem not_belowQuota_iff (s : State) (p : Port) : s.belowQuota p = false ↔ (s.port p).quota ≤ (s.port p).charge := by
  rw [← Bool.not_eq_true, belowQuota_iff, not_lt]

section
variable {w : Work} {p : Port}

theorem claim_of_full (h : w.state.belowQuota p = false) : w.claim p = w.refuse p .quota := by
  unfold Work.claim
  rw [h]
  rfl

theorem claim_of_free {b : BufIx} {rest : List BufIx} (h : w.state.belowQuota p = true) (hf : w.state.freeList = b :: rest) :
    w.claim p = (w.map fun s => (s.handOut p b).setFreeList rest).claimGiven p b false := by
  unfold Work.claim
  simp [h, hf]

theorem claim_of_noBuffer (h : w.state.belowQuota p = true) (hf : w.state.freeList = []) (ht : w.state.operand p 1 = 0) :
    w.claim p = w.refuse p .noBuffer := by
  unfold Work.claim
  simp [h, hf, ht]

theorem claim_of_wait (h : w.state.belowQuota p = true) (hf : w.state.freeList = []) (ht : w.state.operand p 1 ≠ 0) :
    w.claim p = w.map fun s => (s.beginWait p).setClaimWait (s.claimWait ++ [p]) := by
  unfold Work.claim
  simp only [h, hf, if_neg ht]
  rfl

end

/-- A CLAIM that gets the head of the Free List. -/
theorem finish_claim_of_free {s : State} {p : Port} {b : BufIx} {rest : List BufIx} (h : s.belowQuota p = true)
    (hf : s.freeList = b :: rest) :
    ((Work.start s).claim p).finish =
      ((s.setFreeList rest).modBuf b fun r => r.handedTo p (s.port p).session.holdLease).modPort p fun x =>
        x.givenBuffer (handleOf (s.buf b).generation b) false := by
  rw [claim_of_free (w := Work.start s) h hf, finish_claimGiven,
    finish_map fun s p r => by rw [place_setFreeList, place_handOut]]
  unfold State.handOut State.raiseCharge
  simp only [map_state, modPort_setFreeList_comm, modBuf_setFreeList_comm, modPort_modPort, buf_modPort, buf_modBuf_same,
    buf_setFreeList, claimEnds_raised]
  rfl

/-- Settles O15: below its quota a CLAIM gets the head of the Free List; at its quota, or with none free, it is answered at once or waits,
as its timeout says. -/
theorem claimRequest : Obligations.ClaimRequest := by
  unfold Obligations.ClaimRequest
  refine ⟨fun p s b rest hg hq hf => ?_, fun p s hg => ⟨fun hq => ?_, fun hq hf ht => ?_, fun hq hf ht => ?_⟩⟩
  · rw [exec_claim_granted hg, finish_claim_of_free (s := s.served (.re p)) ((belowQuota_iff s p).2 hq) hf]
    rfl
  · exact answers_of_refuse (exec_claim_granted hg) (claim_of_full ((not_belowQuota_iff s p).2 hq))
  · exact answers_of_refuse (exec_claim_granted hg) (claim_of_noBuffer ((belowQuota_iff s p).2 hq) hf ht)
  · rw [exec_claim_granted hg, claim_of_wait (w := Work.start (s.served (.re p))) ((belowQuota_iff s p).2 hq) hf ht]
    rfl

/-! ## RELEASE (R39, R40) -/

theorem givesUp_of_unmap (s : State) (p : Port) (b : BufIx) :
    (s.unmapWindows p b).lowerCharge p = s.modPort p fun x => x.givesUp b := modPort_modPort ..

theorem finish_start (s : State) : (Work.start s).finish = s := rfl

section
variable {s : State} {p : Port}

theorem release_of_held (good : s.checkHandle (s.operand p 0) = none)
    (held : (s.buf (handleIx (s.operand p 0))).heldBy p = true) :
    (Work.start s).release p = (Work.start s).releaseHolding p (handleIx (s.operand p 0)) := by
  unfold Work.release
  simp only [Work.start, good, held, if_true]

theorem release_of_read (good : s.checkHandle (s.operand p 0) = none)
    (held : (s.buf (handleIx (s.operand p 0))).heldBy p = false) (read : (s.buf (handleIx (s.operand p 0))).readBy p = true) :
    (Work.start s).release p = (Work.start s).releaseReader p (handleIx (s.operand p 0)) := by
  unfold Work.release
  simp [Work.start, good, held, read]

theorem release_of_none (good : s.checkHandle (s.operand p 0) = none)
    (held : (s.buf (handleIx (s.operand p 0))).heldBy p = false) (read : (s.buf (handleIx (s.operand p 0))).readBy p = false) :
    (Work.start s).release p = (Work.start s).refuse p .notHolder := by
  unfold Work.release
  simp [Work.start, good, held, read]

end

/-- What a record held before it is freed does not show in what a buffer that enters FREE leaves. -/
theorem entersFree_modBuf (s : State) (b : BufIx) (f : BufRec → BufRec) (hf : ∀ r, (f r).freed = r.freed) :
    (s.modBuf b f).entersFree b = s.entersFree b := by
  have same : ((s.modBuf b f).modBuf b fun r =>
      { r with generation := r.generation + 1, holder := none, readers := [], pending := 0, channel := none, origin := none }) =
        s.modBuf b fun r =>
          { r with generation := r.generation + 1, holder := none, readers := [], pending := 0, channel := none, origin := none } := by
    rw [modBuf_modBuf]
    exact modBuf_congr _ _ (hf _)
  unfold State.entersFree
  simp only [same]
  rfl

/-- The end of a holding that RELEASE gives up. -/
theorem finish_releaseHolding (s : State) (p : Port) (b : BufIx) (idle : (s.buf b).bulkCount = 0) :
    ((Work.start s).releaseHolding p b).finish =
      ((s.modPort p fun x => x.givesUp b).entersFree b).modPort p fun x => x.completes .ok res0 false := by
  unfold Work.releaseHolding
  have given : ((Work.start s).map fun s => ((s.modBuf b fun r => { r with holder := none }).unmapWindows p b).lowerCharge p).finish =
      (s.modPort p fun x => x.givesUp b).modBuf b fun r => { r with holder := none } := givesUp_of_unmap ..
  rw [if_neg (by simpa [Work.start] using idle), finish_completes, finish_enterFree, given,
    entersFree_modBuf _ b (fun r => { r with holder := none }) fun _ => rfl]

/-- The end of a reader role that RELEASE gives up. -/
theorem finish_releaseReader (s : State) (p : Port) (b : BufIx) :
    ((Work.start s).releaseReader p b).finish =
      ((((s.modBuf b fun r => { r with readers := r.readers.filter fun e => e.port != p }).modPort p fun x =>
        x.givesUp b).lastUsed b).modPort p fun x => x.completes .ok res0 false) := by
  unfold Work.releaseReader
  have given : ((Work.start s).map fun s =>
      ((s.modBuf b fun r => { r with readers := r.readers.filter fun e => e.port != p }).unmapWindows p b).lowerCharge p).finish =
        (s.modBuf b fun r => { r with readers := r.readers.filter fun e => e.port != p }).modPort p fun x => x.givesUp b :=
    givesUp_of_unmap ..
  rw [finish_completes, finish_lastUse, given]

theorem belowQuota_modPort_of_other (s : State) {p q : Port} (h : q ≠ p) (f : PortState → PortState) :
    (s.modPort p f).belowQuota q = s.belowQuota q := by
  rw [State.belowQuota, State.belowQuota, port_modPort_other s h]

theorem entersFree_of_server {s : State} {b : BufIx} {q : Port} (h : s.claimWait.find? s.belowQuota = some q) :
    s.entersFree b = (s.modBuf b BufRec.freed).handsTo q b := by
  unfold State.entersFree
  rw [h]
  rfl

theorem entersFree_of_nobody {s : State} {b : BufIx} (h : s.nobodyToServe) :
    s.entersFree b = (s.modBuf b BufRec.freed).setFreeList (s.freeList ++ [b]) := by
  have none : s.claimWait.find? s.belowQuota = none := List.find?_eq_none.2 fun q hq => by simp [h q hq]
  unfold State.entersFree
  rw [none]
  rfl

theorem lastUsed_of_unused {s : State} {b : BufIx} (h : (s.buf b).holder = none) (hr : (s.buf b).readers = [])
    (hp : (s.buf b).pending = 0) (hc : (s.buf b).bulkCount = 0) : s.lastUsed b = s.entersFree b := by
  unfold State.lastUsed
  rw [if_pos ⟨h, hr, hp, hc⟩]

theorem lastUsed_of_used {s : State} {b : BufIx}
    (h : (s.buf b).readers ≠ [] ∨ (s.buf b).pending ≠ 0 ∨ (s.buf b).bulkCount ≠ 0) : s.lastUsed b = s := by
  unfold State.lastUsed
  rw [if_neg fun ⟨_, hr, hp, hc⟩ => by rcases h with h | h | h <;> contradiction]

/-- Settles O16: a holding given up frees the buffer for the claim waiter to be served, or for the Free List; a reader role given up
frees it when it was the last use. -/
theorem releaseRequest : Obligations.ReleaseRequest := by
  unfold Obligations.ReleaseRequest
  refine ⟨fun p s hg good => ?_, fun p s hg good => ?_⟩
  · intro b r held idle quiet
    have served : exec (.release p .carriedOut) s = .next (State.settle
        ((((s.served (.re p)).modPort p fun x => x.givesUp b).entersFree b).modPort p fun x => x.completes .ok res0 false)) := by
      rw [exec_release_granted hg, release_of_held (s := s.served (.re p)) good held]
      exact congrArg done (finish_releaseHolding (s.served (.re p)) p b idle)
    have others : ∀ q ∈ s.claimWait, ((s.served (.re p)).modPort p fun x => x.givesUp b).belowQuota q = s.belowQuota q :=
      fun q hq => belowQuota_modPort_of_other _ (fun e : q = p => quiet (e ▸ hq)) _
    refine ⟨fun nobody => ?_, fun q hq => ?_⟩
    · rw [served, entersFree_of_nobody (s := (s.served (.re p)).modPort p _) fun q hq => (others q hq).trans (nobody q hq)]
      simp only [modPort_freeList, modBuf_setFreeList_comm, modPort_setFreeList_comm, ← modPort_modBuf_comm, modPort_modPort]
      rfl
    · have other : p ≠ q := fun e => quiet (e ▸ List.mem_of_find?_eq_some hq)
      rw [served, entersFree_of_server (q := q) (by rw [← hq]; exact List.find?_congr others)]
      unfold State.handsTo
      simp only [modBuf_claimWait, modPort_claimWait, modBuf_setClaimWait_comm, modPort_setClaimWait_comm, modPort_modBuf_comm,
        modBuf_modBuf, port_modBuf, port_modPort_other _ (Ne.symm other), buf_modBuf_same, buf_modPort]
      rw [modPort_comm _ (Ne.symm other), modPort_modPort]
      rfl
  · intro b r left free read
    have held : r.heldBy p = false := by simp [BufRec.heldBy, free]
    have served : exec (.release p .carriedOut) s = .next (State.settle
        (((((s.served (.re p)).modBuf b fun r => { r with readers := r.readers.filter fun e => e.port != p }).modPort p fun x =>
          x.givesUp b).lastUsed b).modPort p fun x => x.completes .ok res0 false)) := by
      rw [exec_release_granted hg, release_of_read (s := s.served (.re p)) good held read]
      exact congrArg done (finish_releaseReader (s.served (.re p)) p b)
    have buf : (((s.served (.re p)).modBuf b fun r => { r with readers := r.readers.filter fun e => e.port != p }).modPort p
        fun x => x.givesUp b).buf b = { r with readers := left } := by
      rw [buf_modPort, buf_modBuf_same]
      rfl
    refine ⟨fun used => ?_, fun noReader nothing quiet => ?_⟩
    · rw [served, lastUsed_of_used (by rw [buf]; exact used), modPort_modPort]
      rfl
    · rw [served, lastUsed_of_unused (by rw [buf]; exact free) (by rw [buf]; exact noReader) (by rw [buf]; exact nothing)
        (by rw [buf]; exact quiet), ← modPort_modBuf_comm,
        entersFree_modBuf _ b (fun r => { r with readers := r.readers.filter fun e => e.port != p }) fun _ => rfl]

end Sys2Proof.Machine
end

section
/-! The role checks of the requests with a handle, and ADOPT, RENEW, QUERY and CHANNEL_STATUS (R39 to R42, R66, R83, R87, R106, R107). -/

namespace Sys2Proof.Machine

/-! ## Why they are refused -/

theorem rangeFits_iff (o n : Nat) : rangeFits o n = true ↔ o % 2 = 0 ∧ n % 2 = 0 ∧ 2 ≤ n ∧ o + n ≤ 512 := by
  simp only [rangeFits, Bool.and_eq_true, decide_eq_true_eq]
  omega

theorem releaseHolding_of_busy {w : Work} {p : Port} {b : BufIx} (h : (w.state.buf b).bulkCount ≠ 0) :
    w.releaseHolding p b = w.refuse p .busyBuffer := by
  unfold Work.releaseHolding
  rw [if_pos h]

theorem renew_of_none {s : State} {p : Port} (good : s.checkHandle (s.operand p 0) = none)
    (held : (s.buf (handleIx (s.operand p 0))).heldBy p = false) (read : (s.buf (handleIx (s.operand p 0))).readBy p = false) :
    (Work.start s).renew p = (Work.start s).refuse p .notHolder := by
  unfold Work.renew
  simp [Work.start, good, BufRec.roleOf, held, read]

section
variable {s : State} {p : Port} (good : s.checkHandle (s.operand p 0) = none)
include good

theorem adoptRefusal_notHolder (h : (s.buf (handleIx (s.operand p 0))).readBy p = false) : s.adoptRefusal p = some .notHolder := by
  unfold State.adoptRefusal
  simp [good, h]

theorem adoptRefusal_badState (h : (s.buf (handleIx (s.operand p 0))).readBy p = true)
    (more : (s.buf (handleIx (s.operand p 0))).readers.length ≠ 1 ∨ (s.buf (handleIx (s.operand p 0))).pending ≠ 0) :
    s.adoptRefusal p = some .badState := by
  unfold State.adoptRefusal
  simp only [good, h]
  by_cases one : (s.buf (handleIx (s.operand p 0))).readers.length = 1
  · have pending := more.resolve_left (not_not.2 one)
    simp only [one, ne_eq, pending]
    rfl
  · simp [one]

theorem mapRefusal_badState (held : (s.buf (handleIx (s.operand p 0))).state ≠ .held)
    (reading : (s.buf (handleIx (s.operand p 0))).state ≠ .reading) : s.mapRefusal p = some .badState := by
  unfold State.mapRefusal
  simp [good, held, reading]

theorem mapRefusal_notHolder
    (state : (s.buf (handleIx (s.operand p 0))).state = .held ∨ (s.buf (handleIx (s.operand p 0))).state = .reading)
    (held : (s.buf (handleIx (s.operand p 0))).heldBy p = false)
    (cannot : (s.buf (handleIx (s.operand p 0))).readBy p = false ∨ (s.operand p 1).getLsbD 1 = false) :
    s.mapRefusal p = some .notHolder := by
  have suits : ((s.buf (handleIx (s.operand p 0))).state ≠ .held && (s.buf (handleIx (s.operand p 0))).state ≠ .reading) = false := by
    rcases state with h | h <;> simp [h]
  unfold State.mapRefusal
  simp only [good, suits, BufRec.roleOf, held]
  rcases cannot with h | h
  · simp [h]
  · have mode : modeOperand (s.operand p 1) = .rw := if_neg (by rw [h]; exact Bool.false_ne_true)
    simp [mode]

theorem fillRefusal_notHolder (h : (s.buf (handleIx (s.operand p 0))).heldBy p = false) : s.fillRefusal p = some .notHolder := by
  unfold State.fillRefusal
  simp [good, h]

theorem fillRefusal_range (h : (s.buf (handleIx (s.operand p 0))).heldBy p = true)
    (range : rangeFits (s.operand p 1).toNat (s.operand p 2).toNat = false) : s.fillRefusal p = some .range := by
  unfold State.fillRefusal
  simp [good, h, range]

variable (good' : s.checkHandle (s.operand p 2) = none)
include good'

theorem copyRefusal_notHolder
    (h : (s.buf (handleIx (s.operand p 0))).roleOf p = false ∨ (s.buf (handleIx (s.operand p 2))).heldBy p = false) :
    s.copyRefusal p = some .notHolder := by
  have handles : s.checkHandles (s.operand p 0) (s.operand p 2) = none := (checkHandles_of_destination good).trans good'
  unfold State.copyRefusal
  simp only [handles]
  rcases h with h | h <;> simp [h]

theorem copyRefusal_range (source : (s.buf (handleIx (s.operand p 0))).roleOf p = true)
    (destination : (s.buf (handleIx (s.operand p 2))).heldBy p = true)
    (range : (rangeFits (s.operand p 1).toNat (s.operand p 4).toNat &&
      rangeFits (s.operand p 3).toNat (s.operand p 4).toNat) = false) : s.copyRefusal p = some .range := by
  have handles : s.checkHandles (s.operand p 0) (s.operand p 2) = none := (checkHandles_of_destination good).trans good'
  unfold State.copyRefusal
  simp only [handles, source, destination, range]
  rfl

end

theorem roleOf_eq_false_iff (r : BufRec) (p : Port) : r.roleOf p = false ↔ r.heldBy p = false ∧ r.readBy p = false :=
  Bool.or_eq_false_iff

theorem roleOf_iff (r : BufRec) (p : Port) : r.roleOf p = true ↔ r.heldBy p = true ∨ r.readBy p = true := Bool.or_eq_true_iff

/-- Settles O17: each check, in its order, on the record that the handle names. -/
theorem roleChecks : Obligations.RoleChecks := by
  unfold Obligations.RoleChecks
  refine ⟨fun p s good => ⟨fun hg => ⟨fun held busy => ?_, fun held read => ?_⟩, fun hg held read => ?_, fun hg => ⟨fun read => ?_,
    fun read more => ?_⟩⟩, fun p s good => ⟨fun hg => ⟨fun held reading => ?_, fun state held read => ?_, fun state held mode => ?_⟩,
    fun hg => ⟨fun held => ?_, fun held range => ?_⟩, fun hg good' => ⟨fun role => ?_, fun source destination range => ?_⟩⟩⟩
  · exact answers_of_refuse (exec_release_granted hg)
      ((release_of_held (s := s.served (.re p)) good held).trans (releaseHolding_of_busy busy))
  · exact answers_of_refuse (exec_release_granted hg) (release_of_none (s := s.served (.re p)) good held read)
  · exact answers_of_refuse (exec_renew_granted hg) (renew_of_none (s := s.served (.re p)) good held read)
  · exact answers_of_refuse (exec_adopt_granted hg) (adopt_of_refusal (adoptRefusal_notHolder (s := s.served (.re p)) good read))
  · exact answers_of_refuse (exec_adopt_granted hg)
      (adopt_of_refusal (adoptRefusal_badState (s := s.served (.re p)) good read more))
  · exact answers_of_refuse (exec_map_granted hg)
      (map_of_refusal (mapRefusal_badState (s := s.served (.re p)) good held reading))
  · exact answers_of_refuse (exec_map_granted hg)
      (map_of_refusal (mapRefusal_notHolder (s := s.served (.re p)) good state held (.inl read)))
  · exact answers_of_refuse (exec_map_granted hg)
      (map_of_refusal (mapRefusal_notHolder (s := s.served (.re p)) good state held (.inr mode)))
  · exact answers_of_refuse (exec_fill_granted hg) (fill_of_refusal (fillRefusal_notHolder (s := s.served (.re p)) good held))
  · exact answers_of_refuse (exec_fill_granted hg) (fill_of_refusal (fillRefusal_range (s := s.served (.re p)) good held
      (Bool.eq_false_iff.2 fun fits => range ((rangeFits_iff _ _).1 fits))))
  · exact exec_copy_of_refusal hg (copyRefusal_notHolder good good' (role.imp_left (roleOf_eq_false_iff _ _).2))
  · refine exec_copy_of_refusal hg (copyRefusal_range good good' ((roleOf_iff _ _).2 source) destination
      (Bool.eq_false_iff.2 fun fits => range ?_))
    obtain ⟨first, second⟩ := Bool.and_eq_true_iff.1 fits
    exact ⟨(rangeFits_iff _ _).1 first, (rangeFits_iff _ _).1 second⟩

/-! ## ADOPT (R41) and RENEW (R83) -/

theorem heldBy_of_some {r : BufRec} {p : Port} {l : Option Lease} (h : r.holder = some { port := p, lease := l }) :
    r.heldBy p = true := by
  simp [BufRec.heldBy, h]

theorem heldBy_of_none {r : BufRec} (p : Port) (h : r.holder = none) : r.heldBy p = false := by simp [BufRec.heldBy, h]

section
variable {s : State} {p : Port} (good : s.checkHandle (s.operand p 0) = none)
include good

theorem adoptRefusal_none {e : Role} (sole : (s.buf (handleIx (s.operand p 0))).readers = [e]) (port : e.port = p)
    (nothing : (s.buf (handleIx (s.operand p 0))).pending = 0) : s.adoptRefusal p = none := by
  unfold State.adoptRefusal
  simp [good, sole, port, nothing, BufRec.readBy]

theorem renew_of_role (role : (s.buf (handleIx (s.operand p 0))).roleOf p = true) {l : Option Lease}
    (hl : renewLease ((s.buf (handleIx (s.operand p 0))).leaseOfPort p)
      (if (s.buf (handleIx (s.operand p 0))).heldBy p then (s.port p).session.holdLease else (s.port p).session.readLease) = l) :
    ((Work.start s).renew p).finish =
      (s.modBuf (handleIx (s.operand p 0)) fun r => r.setLease p l).modPort p fun x =>
        x.completes .ok (res1 ((l.map Lease.remaining).getD 0)) false := by
  have work : (Work.start s).renew p =
      ((Work.start s).map fun s' => s'.modBuf (handleIx (s.operand p 0)) fun r => r.setLease p l).complete p .ok
        (res1 ((l.map Lease.remaining).getD 0)) false := by
    subst hl
    unfold Work.renew
    simp only [Work.start, good, role]
    rfl
  rw [work, finish_completes]
  rfl

end

/-- RENEW of a lease: none stays none, and a lease restarts at the policy value or is dropped. -/
theorem renewLease_eq (l : Option Lease) (policy : Word) :
    renewLease l policy = if l = none ∨ policy = 0 then none else some { remaining := policy, stage := .normal } := by
  cases l with
  | none => rfl
  | some l => simp [renewLease, leaseOf]

theorem renewLease_remaining (l : Option Lease) (policy : Word) :
    ((renewLease l policy).map Lease.remaining).getD 0 = if l = none then 0 else policy := by
  rw [renewLease_eq]
  by_cases none : l = none
  · simp [none]
  · by_cases zero : policy = 0
    · simp [none, zero]
    · rw [if_neg (by simp only [none, zero, or_self, not_false_eq_true]), if_neg none]
      rfl

/-- The lease of one reader set, where the ports of a readers list are distinct. -/
theorem readers_setLease {front back : List Role} {p : Port} {l : Option Lease} (l' : Option Lease)
    (distinct : ((front ++ { port := p, lease := l } :: back).map Role.port).Nodup) :
    (front ++ { port := p, lease := l } :: back).map (fun e => if e.port = p then { e with lease := l' } else e) =
      front ++ { port := p, lease := l' } :: back := by
  have other : ∀ e ∈ front ++ back, e.port ≠ p := by
    intro e he port
    rw [List.map_append, List.map_cons, List.nodup_middle, List.nodup_cons] at distinct
    exact distinct.1 (by rw [← List.map_append]; exact List.mem_map.2 ⟨e, he, port⟩)
  have same : ∀ m : List Role, (∀ e ∈ m, e.port ≠ p) → m.map (fun e => if e.port = p then { e with lease := l' } else e) = m :=
    fun m hm => (List.map_congr_left (g := id) fun e he => if_neg (hm e he)).trans (List.map_id m)
  rw [List.map_append, List.map_cons, same front fun e he => other e (List.mem_append_left _ he),
    same back fun e he => other e (List.mem_append_right _ he), if_pos rfl]

theorem find_reader {front back : List Role} {p : Port} {l : Option Lease}
    (distinct : ((front ++ { port := p, lease := l } :: back).map Role.port).Nodup) :
    (front ++ { port := p, lease := l } :: back).find? (fun e => e.port == p) = some { port := p, lease := l } := by
  have before : ∀ e ∈ front, ¬(e.port == p) = true := by
    intro e he port
    rw [List.map_append, List.map_cons, List.nodup_middle, List.nodup_cons] at distinct
    exact distinct.1 (List.mem_append_left _ (List.mem_map.2 ⟨e, he, beq_iff_eq.1 port⟩))
  rw [List.find?_append, List.find?_eq_none.2 before]
  simp

section
variable {r : BufRec} {p : Port} {l : Option Lease}

theorem leaseOfPort_held (h : r.holder = some { port := p, lease := l }) : r.leaseOfPort p = l := by
  rw [BufRec.leaseOfPort, if_pos (heldBy_of_some h), h]
  rfl

theorem setLease_held (h : r.holder = some { port := p, lease := l }) (l' : Option Lease) :
    r.setLease p l' = { r with holder := some { port := p, lease := l' } } := by
  rw [BufRec.setLease, if_pos (heldBy_of_some h), h]
  rfl

variable {front back : List Role} (readers : r.readers = front ++ { port := p, lease := l } :: back)
  (free : r.holder = none) (distinct : (r.readers.map Role.port).Nodup)
include readers

theorem roleOf_reader : r.roleOf p = true := by simp [BufRec.roleOf, BufRec.readBy, readers]

include free distinct

theorem leaseOfPort_reader : r.leaseOfPort p = l := by
  rw [BufRec.leaseOfPort, heldBy_of_none p free, if_neg Bool.false_ne_true, readers, find_reader (readers ▸ distinct)]
  rfl

theorem setLease_reader (l' : Option Lease) :
    r.setLease p l' = { r with readers := front ++ { port := p, lease := l' } :: back } := by
  rw [BufRec.setLease, heldBy_of_none p free, if_neg Bool.false_ne_true, readers, readers_setLease l' (readers ▸ distinct)]

end

/-- Settles O18: the sole reader becomes the holder, and a lease restarts at the policy value; one clause of RENEW for a holding, one for a
reader role. -/
theorem adoptAndRenew : Obligations.AdoptAndRenew := by
  unfold Obligations.AdoptAndRenew
  refine ⟨fun p s e hg good => ?_, fun p s hg good => ⟨fun l holder => ?_, fun l front back free readers distinct => ?_⟩⟩
  · intro b sole port nothing
    have accepted : (s.served (.re p)).adoptRefusal p = none := adoptRefusal_none (s := s.served (.re p)) good sole port nothing
    rw [exec_adopt_granted hg]
    unfold Work.adopt
    simp only [Work.start, accepted]
    rw [finish_completes, State.handle, map_state, buf_modBuf_same]
    rfl
  · have lease := leaseOfPort_held holder
    rw [exec_renew_granted hg, renew_of_role (s := s.served (.re p)) good ((roleOf_iff _ _).2 (.inl (heldBy_of_some holder)))
      (congrArg₂ renewLease lease (if_pos (heldBy_of_some holder))),
      renewLease_remaining, renewLease_eq]
    refine congrArg (fun t : State => done (t.modPort p _)) (modBuf_congr (s.served (.re p)) _ ?_)
    exact setLease_held holder _
  · have lease := leaseOfPort_reader readers free distinct
    rw [exec_renew_granted hg, renew_of_role (s := s.served (.re p)) good (roleOf_reader readers)
      (congrArg₂ renewLease lease (if_neg (Bool.eq_false_iff.1 (heldBy_of_none p free)))),
      renewLease_remaining, renewLease_eq]
    refine congrArg (fun t : State => done (t.modPort p _)) (modBuf_congr (s.served (.re p)) _ ?_)
    exact setLease_reader readers free distinct _

end Sys2Proof.Machine
end

section
/-! Port masks bit by bit, and the requests that report a record: QUERY and CHANNEL_STATUS (R42, R66, R168). -/

namespace Sys2Proof.Machine

/-! ## Port masks -/

theorem mask_ext {m n : PortMask} (h : ∀ p, maskHas m p = maskHas n p) : m = n :=
  BitVec.eq_of_getLsbD_eq fun i hi => h ⟨i, hi⟩

@[simp] theorem maskHas_and (m n : PortMask) (p : Port) : maskHas (m &&& n) p = (maskHas m p && maskHas n p) := by
  simp [maskHas]

@[simp] theorem maskHas_not (m : PortMask) (p : Port) : maskHas (~~~m) p = !maskHas m p := by
  simp [maskHas, p.isLt]

theorem maskHas_single (p q : Port) : maskHas (1#4 <<< p.val) q = decide (q = p) := by decide +revert

@[simp] theorem maskHas_insert (m : PortMask) (p q : Port) : maskHas (maskInsert m p) q = (maskHas m q || decide (q = p)) := by
  rw [← maskHas_single]
  simp [maskHas, maskInsert]

@[simp] theorem maskHas_erase (m : PortMask) (p q : Port) : maskHas (maskErase m p) q = (maskHas m q && !decide (q = p)) := by
  rw [← maskHas_single, ← maskHas_not, ← maskHas_and]
  rfl

theorem maskHas_foldl_insert (ps : List Port) (m : PortMask) (q : Port) :
    maskHas (ps.foldl maskInsert m) q = (maskHas m q || decide (q ∈ ps)) := by
  induction ps generalizing m with
  | nil => simp
  | cons p ps ih => simp [ih, Bool.or_assoc]

@[simp] theorem maskHas_maskOf (ps : List Port) (q : Port) : maskHas (maskOf ps) q = decide (q ∈ ps) := by
  simp [maskOf, maskHas_foldl_insert]

theorem mem_allPorts (p : Port) : p ∈ allPorts := by decide +revert

@[simp] theorem mem_maskPorts (m : PortMask) (p : Port) : p ∈ maskPorts m ↔ maskHas m p = true := by
  simp [maskPorts, mem_allPorts]

theorem maskPorts_nodup (m : PortMask) : (maskPorts m).Nodup := List.Nodup.filter _ (by decide)

theorem mask_eq_zero_iff (m : PortMask) : m = 0 ↔ ∀ p, maskHas m p = false :=
  ⟨fun h p => by rw [h]; exact maskHas_zero p, fun h => mask_ext fun p => (h p).trans (maskHas_zero p).symm⟩

/-! ## Fields of a word -/

theorem fieldAt_ofBitVec {n : Nat} (x : BitVec n) (i : Nat) : fieldAt x.toNat i = x.setWidth 16 <<< i := by
  rw [fieldAt, BitVec.ofNat_toNat]

theorem bitAt_ofBool (b : Bool) (i : Nat) : bitAt b i = (BitVec.ofBool b).setWidth 16 <<< i := by
  cases b <;> simp [bitAt]

/-- QUERY's word of the state, the holder and the readers. -/
theorem queryWord_roles (state : BitVec 3) (holds : Bool) (holder : BitVec 2) (readers : PortMask) :
    fieldAt state.toNat 0 ||| bitAt holds 3 ||| fieldAt holder.toNat 4 ||| fieldAt readers.toNat 8 =
      0#4 ++ readers ++ 0#2 ++ holder ++ BitVec.ofBool holds ++ state := by
  refine BitVec.eq_of_getLsbD_eq fun j hj => ?_
  simp only [fieldAt_ofBitVec, bitAt_ofBool, BitVec.getLsbD_or, BitVec.getLsbD_shiftLeft, BitVec.getLsbD_setWidth, BitVec.getLsbD_append]
  interval_cases j <;> simp

/-- QUERY's word of the pending set, the channel and the origin. -/
theorem queryWord_places (pending : PortMask) (channel : BitVec 4) (queued : Bool) (origin : BitVec 2) (posted : Bool) :
    fieldAt pending.toNat 0 ||| fieldAt channel.toNat 8 ||| bitAt queued 12 ||| fieldAt origin.toNat 13 ||| bitAt posted 15 =
      BitVec.ofBool posted ++ origin ++ BitVec.ofBool queued ++ channel ++ 0#4 ++ pending := by
  refine BitVec.eq_of_getLsbD_eq fun j hj => ?_
  simp only [fieldAt_ofBitVec, bitAt_ofBool, BitVec.getLsbD_or, BitVec.getLsbD_shiftLeft, BitVec.getLsbD_setWidth, BitVec.getLsbD_append]
  interval_cases j <;> simp

/-- CHANNEL_STATUS's word of the state and the settings of a channel that is not CLOSED. -/
theorem statusWord_settings (state : BitVec 2) (fanout displaces edge : Bool) :
    fieldAt state.toNat 0 ||| bitAt fanout 4 ||| bitAt displaces 5 ||| bitAt edge 6 ||| bitAt true 7 =
      0#8 ++ 1#1 ++ BitVec.ofBool edge ++ BitVec.ofBool displaces ++ BitVec.ofBool fanout ++ 0#2 ++ state := by
  refine BitVec.eq_of_getLsbD_eq fun j hj => ?_
  simp only [fieldAt_ofBitVec, bitAt_ofBool, BitVec.getLsbD_or, BitVec.getLsbD_shiftLeft, BitVec.getLsbD_setWidth, BitVec.getLsbD_append]
  interval_cases j <;> simp

/-- CHANNEL_STATUS's word of the destinations and the sources. -/
theorem statusWord_ports (destinations sources : PortMask) :
    fieldAt destinations.toNat 0 ||| fieldAt sources.toNat 8 = 0#4 ++ sources ++ 0#4 ++ destinations := by
  refine BitVec.eq_of_getLsbD_eq fun j hj => ?_
  simp only [fieldAt_ofBitVec, BitVec.getLsbD_or, BitVec.getLsbD_shiftLeft, BitVec.getLsbD_setWidth, BitVec.getLsbD_append]
  interval_cases j <;> simp

/-! ## QUERY -/

theorem mask_of_readers (r : BufRec) : maskOf (r.readers.map Role.port) =
    BitVec.ofBool (r.readBy 3) ++ BitVec.ofBool (r.readBy 2) ++ BitVec.ofBool (r.readBy 1) ++ BitVec.ofBool (r.readBy 0) := by
  refine mask_ext fun p => ?_
  have read : maskHas (maskOf (r.readers.map Role.port)) p = r.readBy p := by
    rw [maskHas_maskOf, Bool.eq_iff_iff]
    simp [BufRec.readBy]
  rw [read]
  simp only [maskHas, BitVec.getLsbD_append]
  fin_cases p <;> simp

/-- QUERY's words, by the numbers their fields carry. -/
theorem queryWords_eq (r : BufRec) {state : BitVec 3} {holder : BitVec 2} {channel : BitVec 4} {origin : BitVec 2}
    (hs : state.toNat = bufStateValue r.state) (hh : holder.toNat = (r.holder.map fun h => h.port.val).getD 0)
    (hc : channel.toNat = (r.channel.map Fin.val).getD 0) (ho : origin.toNat = (r.origin.map Fin.val).getD 0) :
    queryWords r =
      #v[0#4 ++ (BitVec.ofBool (r.readBy 3) ++ BitVec.ofBool (r.readBy 2) ++ BitVec.ofBool (r.readBy 1) ++
          BitVec.ofBool (r.readBy 0)) ++ 0#2 ++ holder ++ BitVec.ofBool r.holder.isSome ++ state,
        BitVec.ofNat 16 r.length, r.tag,
        BitVec.ofBool r.origin.isSome ++ origin ++ BitVec.ofBool r.channel.isSome ++ channel ++ 0#4 ++ r.pending] := by
  unfold queryWords res4
  rw [← hs, ← hh, ← hc, ← ho, queryWord_roles, queryWord_places, mask_of_readers]

/-- CHANNEL_STATUS's words of a channel with settings. -/
theorem statusWords_eq {x : Chan} {u : ChanSetup} (hu : x.setup = some u) {state : BitVec 2} (hs : state.toNat = x.status.value) :
    statusWords x =
      #v[0#8 ++ 1#1 ++ BitVec.ofBool (u.notice == .edge) ++ BitVec.ofBool (u.policy == .displaceOldest) ++
          BitVec.ofBool (u.kind == .fanout) ++ 0#2 ++ state,
        BitVec.ofNat 16 x.queue.length, BitVec.ofNat 16 u.capacity, 0#4 ++ u.sources ++ 0#4 ++ u.destinations] := by
  have destinations : x.destinations = u.destinations := by rw [Chan.destinations, hu]; rfl
  unfold statusWords res4
  simp only [hu, destinations, ← hs, Option.any_some, Option.map_some, Option.getD_some, Option.isSome_some, statusWord_settings,
    statusWord_ports]

theorem statusWords_closed {x : Chan} (hs : x.status = .closed) (hq : x.queue = []) : statusWords x = #v[0, 0, 0, 0] := by
  have setup : x.setup = none := by rw [Chan.setup, hs]
  have destinations : x.destinations = 0 := by rw [Chan.destinations, setup]; rfl
  unfold statusWords res4
  simp only [hs, hq, setup, destinations]
  rfl

theorem query_of_current {s : State} {p : Port} (good : s.checkHandle (s.operand p 0) = none) :
    ((Work.start s).query p).finish =
      s.modPort p fun x => x.completes .ok (queryWords (s.buf (handleIx (s.operand p 0)))) false := by
  have work : (Work.start s).query p =
      (Work.start s).complete p .ok (queryWords (s.buf (handleIx (s.operand p 0)))) false := by
    unfold Work.query
    simp only [Work.start, good]
  rw [work, finish_complete rfl]
  rfl

theorem channelStatus_of_channel {s : State} {p : Port} {c : ChanIx} (h : channelOperand (s.operand p 0) = some c) :
    ((Work.start s).channelStatus p).finish = s.modPort p fun x => x.completes .ok (statusWords (s.chan c)) false := by
  have work : (Work.start s).channelStatus p = (Work.start s).complete p .ok (statusWords (s.chan c)) false := by
    unfold Work.channelStatus
    simp only [Work.start, h]
  rw [work, finish_complete rfl]
  rfl

theorem channelStatus_of_range {w : Work} {p : Port} (h : channelOperand (w.state.operand p 0) = none) :
    w.channelStatus p = w.refuse p .range := by
  unfold Work.channelStatus
  rw [h]

theorem exec_channelStatus_granted {s : State} {p : Port} (h : s.grants (.re p) (.request .channelStatus) = true) :
    exec (.channelStatus p .carriedOut) s = .next (((Work.start (s.served (.re p))).channelStatus p).finish).settle :=
  congrArg done (tableRequest_granted h _)

theorem channelOperand_of_channel {w : Word} {c : ChanIx} (h : w.toNat = c.val) : channelOperand w = some c := by
  have less : w.toNat < 16 := h ▸ c.isLt
  rw [channelOperand, dif_pos less]
  exact congrArg some (Fin.ext h)

theorem channelOperand_of_range {w : Word} (h : 16 ≤ w.toNat) : channelOperand w = none := dif_neg (by omega)

/-- Settles O19: the words of QUERY and CHANNEL_STATUS, bit by bit. -/
theorem reportingRequests : Obligations.ReportingRequests := by
  unfold Obligations.ReportingRequests
  refine fun p s => ⟨fun hg good => ?_, fun hg => ⟨fun c hc => ?_, fun hc => ?_⟩⟩
  · rw [exec_query_granted hg, query_of_current (s := s.served (.re p)) good]
    refine congrArg (fun r : Vector Word 4 => done ((s.served (.re p)).modPort p fun x => x.completes .ok r false))
      (queryWords_eq _ ?_ ?_ ?_ ?_)
    · cases h : (s.buf (handleIx (s.operand p 0))).state <;> simp [h, bufStateValue]
    · cases h : (s.buf (handleIx (s.operand p 0))).holder <;> simp [h]
    · cases h : (s.buf (handleIx (s.operand p 0))).channel <;> simp [h]
    · cases h : (s.buf (handleIx (s.operand p 0))).origin <;> simp [h]
  · have answers : exec (.channelStatus p .carriedOut) s =
        .next (State.settle ((s.served (.re p)).modPort p fun x => x.completes .ok (statusWords (s.chan c)) false)) := by
      rw [exec_channelStatus_granted hg, channelStatus_of_channel (s := s.served (.re p)) (channelOperand_of_channel hc)]
      rfl
    refine ⟨fun u hu => ?_, fun u q hu => ?_, fun hu empty => ?_⟩
    · rw [answers, statusWords_eq (u := u) (state := 1) (by rw [Chan.setup, hu]) (by rw [hu]; rfl)]
    · rw [answers, statusWords_eq (u := u) (state := 2) (by rw [Chan.setup, hu]) (by rw [hu]; rfl)]
    · rw [answers, statusWords_closed hu empty]
  · exact answers_of_refuse (exec_channelStatus_granted hg) (channelStatus_of_range (channelOperand_of_range hc))

end Sys2Proof.Machine
end

section
/-! OPEN_CHANNEL, and what OPEN_CHANNEL, POST, TAKE and CLOSE_CHANNEL check (R46 to R48, R52, R56, R60). -/

namespace Sys2Proof.Machine

/-! ## Granted channel requests -/

section
variable {s : State} {p : Port}

theorem exec_openChannel_granted (h : s.grants (.re p) (.request .openChannel) = true) :
    exec (.openChannel p .carriedOut) s = .next (((Work.start (s.served (.re p))).openChannel p).finish).settle :=
  congrArg done (tableRequest_granted h _)
theorem exec_take_granted (h : s.grants (.re p) (.request .take) = true) :
    exec (.take p .carriedOut) s = .next (((Work.start (s.served (.re p))).take p).finish).settle :=
  congrArg done (tableRequest_granted h _)
theorem exec_closeChannel_granted (h : s.grants (.re p) (.request .closeChannel) = true) :
    exec (.closeChannel p .carriedOut) s = .next (((Work.start (s.served (.re p))).closeChannel p).finish).settle :=
  congrArg done (tableRequest_granted h _)

end

section
variable {w : Work} {p : Port} {e : ResultCode}

theorem openChannel_of_refusal (h : w.state.openRefusal p = some e) : w.openChannel p = w.refuse p e := by
  unfold Work.openChannel
  simp only [h]
theorem take_of_refusal (h : w.state.takeRefusal p = some e) : w.take p = w.refuse p e := by
  unfold Work.take
  simp only [h]
theorem closeChannel_of_refusal (h : w.state.closeRefusal p = some e) : w.closeChannel p = w.refuse p e := by
  unfold Work.closeChannel
  simp only [h]

end

/-! ## OPEN_CHANNEL (R46, R47) -/

/-- The latched operands are the operand words. -/
theorem operands_get (s : State) (p : Port) (i : Fin 6) : (s.operands p).get i = s.operand p i := by
  unfold State.operands State.operand
  cases (s.port p).engine.operands with
  | none => exact vector_get_replicate ..
  | some o => rfl

theorem setupOperand_operands (s : State) (p : Port) : setupOperand (s.operands p) =
    { kind := if (s.operand p 1).getLsbD 8 then .fanout else .unicast
      destinations := (s.operand p 1).extractLsb' 0 4
      sources := (s.operand p 2).extractLsb' 0 4
      capacity := (s.operand p 3).toNat
      policy := if (s.operand p 4).getLsbD 0 then .displaceOldest else .refuse
      notice := if (s.operand p 4).getLsbD 1 then .edge else .every } := by
  rw [← operands_get, ← operands_get, ← operands_get, ← operands_get]
  rfl

theorem destinationsSuit_iff (u : ChanSetup) : u.destinationsSuit = true ↔
    if u.kind = .unicast then (maskPorts u.destinations).length = 1 else 2 ≤ (maskPorts u.destinations).length := by
  unfold ChanSetup.destinationsSuit
  cases u.kind <;> simp

theorem all_attached_iff (s : State) (m : PortMask) :
    (maskPorts m).all s.attached = true ↔ ∀ q, maskHas m q = true → s.attached q = true := by
  simp

section
variable {s : State} {p : Port}

theorem openRefusal_range (h : channelOperand (s.operand p 0) = none) : s.openRefusal p = some .range := by
  unfold State.openRefusal
  simp only [h]

variable {c : ChanIx} (hc : channelOperand (s.operand p 0) = some c)
include hc

theorem openRefusal_badState (h : (s.chan c).status ≠ .closed) : s.openRefusal p = some .badState := by
  unfold State.openRefusal
  simp only [hc, if_pos h]

variable (closed : (s.chan c).status = .closed)
include closed

theorem openRefusal_of_closed : s.openRefusal p =
    if !(setupOperand (s.operands p)).destinationsSuit then some .range
    else if !maskHas (setupOperand (s.operands p)).destinations p then some .notDestination
    else if !(maskPorts (setupOperand (s.operands p)).destinations).all s.attached then some .session
    else if (setupOperand (s.operands p)).sources = 0 || (setupOperand (s.operands p)).capacity < 1 ||
      255 < (setupOperand (s.operands p)).capacity then some .range
    else none := by
  unfold State.openRefusal
  simp only [hc, closed, ne_eq, not_true_eq_false, if_false]

theorem openRefusal_unsuited (h : (setupOperand (s.operands p)).destinationsSuit = false) : s.openRefusal p = some .range := by
  rw [openRefusal_of_closed hc closed, h]
  rfl

variable (suits : (setupOperand (s.operands p)).destinationsSuit = true)
include suits

theorem openRefusal_notDestination (h : maskHas (setupOperand (s.operands p)).destinations p = false) :
    s.openRefusal p = some .notDestination := by
  rw [openRefusal_of_closed hc closed, suits, h]
  rfl

variable (opener : maskHas (setupOperand (s.operands p)).destinations p = true)
include opener

theorem openRefusal_session (h : (maskPorts (setupOperand (s.operands p)).destinations).all s.attached = false) :
    s.openRefusal p = some .session := by
  rw [openRefusal_of_closed hc closed, suits, opener, h]
  rfl

variable (attached : (maskPorts (setupOperand (s.operands p)).destinations).all s.attached = true)
include attached

theorem openRefusal_of_attached : s.openRefusal p =
    if (setupOperand (s.operands p)).sources = 0 ∨ (setupOperand (s.operands p)).capacity = 0 ∨
      256 ≤ (setupOperand (s.operands p)).capacity then some .range else none := by
  rw [openRefusal_of_closed hc closed, suits, opener, attached]
  simp only [Bool.not_true, Bool.false_eq_true, if_false, Bool.or_eq_true, decide_eq_true_eq, or_assoc, Nat.lt_one_iff, Nat.lt_iff_add_one_le (m := 255)]

end

/-- The end of an OPEN_CHANNEL whose checks pass. -/
theorem finish_openChannel {s : State} {p : Port} {c : ChanIx} (hc : channelOperand (s.operand p 0) = some c)
    (accepted : s.openRefusal p = none) :
    ((Work.start s).openChannel p).finish =
      ((s.setChan c { status := .opened (setupOperand (s.operands p)), queue := [], takeWaiters := 0 }).placeAll
        ((maskPorts (setupOperand (s.operands p)).destinations).filter fun q => q != p)
        (mkRecord .channelOpened c.val 0)).modPort p fun x => x.completes .ok res0 false := by
  unfold Work.openChannel
  simp only [Work.start, accepted, hc]
  exact finish_complete rfl ..

/-- Settles O20: an OPEN_CHANNEL whose checks pass opens its channel and tells the other destinations. -/
theorem openChannelOpens : Obligations.OpenChannelOpens := by
  unfold Obligations.OpenChannelOpens
  intro p s c hg hc closed o u
  have settings : setupOperand o = u := setupOperand_operands s p
  refine ⟨settings, fun suits opener attached sources low high => ?_⟩
  have operand := channelOperand_of_channel hc
  rw [← settings] at suits opener attached sources low high
  have accepted : (s.served (.re p)).openRefusal p = none := by
    refine (openRefusal_of_attached (s := s.served (.re p)) operand closed ((destinationsSuit_iff _).2 suits) opener
      ((all_attached_iff _ _).2 attached)).trans (if_neg ?_)
    rintro (h | h | h)
    · exact sources h
    · exact Nat.ne_of_gt low h
    · exact absurd high (Nat.not_le.2 h)
  rw [exec_openChannel_granted hg, finish_openChannel (s := s.served (.re p)) operand accepted, ← settings]
  rfl

/-! ## What TAKE, CLOSE_CHANNEL and POST check -/

section
variable {s : State} {p : Port}

theorem takeRefusal_range (h : channelOperand (s.operand p 0) = none) : s.takeRefusal p = some .range := by
  unfold State.takeRefusal
  simp only [h]

theorem closeRefusal_range (h : channelOperand (s.operand p 0) = none) : s.closeRefusal p = some .range := by
  unfold State.closeRefusal
  simp only [h]

variable {c : ChanIx} (hc : channelOperand (s.operand p 0) = some c)
include hc

theorem takeRefusal_closed (h : ∀ u, (s.chan c).status ≠ .opened u) : s.takeRefusal p = some .channelClosed := by
  unfold State.takeRefusal
  simp only [hc]

theorem closeRefusal_closed (h : ∀ u, (s.chan c).status ≠ .opened u) : s.closeRefusal p = some .channelClosed := by
  unfold State.closeRefusal
  simp only [hc]

variable {u : ChanSetup} (opened : (s.chan c).status = .opened u)
include opened

theorem takeRefusal_of_opened : s.takeRefusal p =
    if !maskHas u.destinations p then some .notDestination else if !s.belowQuota p then some .quota else none := by
  unfold State.takeRefusal
  simp only [hc, opened]

theorem closeRefusal_of_opened : s.closeRefusal p =
    if maskHas u.destinations p || s.supervises p then none else some .notDestination := by
  unfold State.closeRefusal
  simp only [hc, opened]

end

/-- What POST checks after the handle and the holding. -/
theorem postRefusal_of_held {s : State} {p : Port} (good : s.checkHandle (s.operand p 0) = none)
    (held : (s.buf (handleIx (s.operand p 0))).heldBy p = true) (idle : (s.buf (handleIx (s.operand p 0))).bulkCount = 0) :
    s.postRefusal p =
      match channelOperand (s.operand p 1) with
      | none => some .range
      | some c =>
        match (s.chan c).status with
        | .opened u =>
          if !maskHas u.sources p then some .notSource
          else if 512 < (s.operand p 2).toNat then some .range
          else if u.policy = .refuse && s.queueFull c && s.wouldRemain c then some .queueFull
          else none
        | _ => some .channelClosed := by
  unfold State.postRefusal
  simp only [good, held, idle, Bool.not_true, ne_eq, not_true_eq_false, if_false, Bool.false_eq_true] <;> rfl

theorem postRefusal_notHolder {s : State} {p : Port} (good : s.checkHandle (s.operand p 0) = none)
    (held : (s.buf (handleIx (s.operand p 0))).heldBy p = false) : s.postRefusal p = some .notHolder := by
  unfold State.postRefusal
  simp [good, held]

theorem postRefusal_busy {s : State} {p : Port} (good : s.checkHandle (s.operand p 0) = none)
    (held : (s.buf (handleIx (s.operand p 0))).heldBy p = true) (busy : (s.buf (handleIx (s.operand p 0))).bulkCount ≠ 0) :
    s.postRefusal p = some .busyBuffer := by
  unfold State.postRefusal
  simp [good, held, busy]

theorem setup_of_opened {x : Chan} {u : ChanSetup} (h : x.status = .opened u) : x.setup = some u := by rw [Chan.setup, h]

theorem destinations_of_setup {x : Chan} {u : ChanSetup} (h : x.setup = some u) : x.destinations = u.destinations := by
  rw [Chan.destinations, h]
  rfl

theorem queueFull_iff {s : State} {c : ChanIx} {u : ChanSetup} (h : (s.chan c).status = .opened u) :
    s.queueFull c = true ↔ u.capacity ≤ (s.chan c).queue.length := by
  rw [State.queueFull, setup_of_opened h]
  simp

theorem wouldRemain_iff {s : State} {c : ChanIx} {u : ChanSetup} (h : (s.chan c).status = .opened u) :
    s.wouldRemain c = true ↔ ∃ q, maskHas u.destinations q = true ∧
      (maskHas (s.chan c).takeWaiters q = false ∨ (s.port q).quota ≤ (s.port q).charge) := by
  rw [State.wouldRemain, destinations_of_setup (setup_of_opened h)]
  simp [← not_belowQuota_iff, -Bool.not_eq_true]

section
variable {s : State} {p : Port} (good : s.checkHandle (s.operand p 0) = none)
  (held : (s.buf (handleIx (s.operand p 0))).heldBy p = true) (idle : (s.buf (handleIx (s.operand p 0))).bulkCount = 0)
include good held idle

theorem postRefusal_range (h : channelOperand (s.operand p 1) = none) : s.postRefusal p = some .range := by
  rw [postRefusal_of_held good held idle, h]

variable {c : ChanIx} (hc : channelOperand (s.operand p 1) = some c)
include hc

theorem postRefusal_closed (h : ∀ u, (s.chan c).status ≠ .opened u) : s.postRefusal p = some .channelClosed := by
  rw [postRefusal_of_held good held idle, hc]
  cases hs : (s.chan c).status with
  | opened u => exact absurd hs (h u)
  | closed => simp [hs]
  | closing u q => simp [hs]

variable {u : ChanSetup} (opened : (s.chan c).status = .opened u)
include opened

theorem postRefusal_of_opened : s.postRefusal p =
    if !maskHas u.sources p then some .notSource
    else if 512 < (s.operand p 2).toNat then some .range
    else if u.policy = .refuse && s.queueFull c && s.wouldRemain c then some .queueFull
    else none := by
  rw [postRefusal_of_held good held idle, hc]
  simp only [opened]

theorem postRefusal_notSource (h : maskHas u.sources p = false) : s.postRefusal p = some .notSource := by
  rw [postRefusal_of_opened good held idle hc opened, h]
  rfl

variable (source : maskHas u.sources p = true)
include source

theorem postRefusal_length (h : 512 < (s.operand p 2).toNat) : s.postRefusal p = some .range := by
  rw [postRefusal_of_opened good held idle hc opened, source, if_pos h]
  rfl

variable (short : (s.operand p 2).toNat ≤ 512)
include short

theorem postRefusal_of_short : s.postRefusal p =
    if u.policy = .refuse && s.queueFull c && s.wouldRemain c then some .queueFull else none := by
  rw [postRefusal_of_opened good held idle hc opened, source, if_neg (Nat.not_lt.2 short)]
  rfl

end

/-- Settles O21: each check of the channel requests, in its order. -/
theorem channelChecks : Obligations.ChannelChecks := by
  unfold Obligations.ChannelChecks
  refine ⟨fun p s => ⟨fun hg => ?_, fun hg => ?_, fun hg => ?_⟩, fun p s hg good => ?_⟩
  · intro u suits
    have refused : ∀ {e}, (s.served (.re p)).openRefusal p = some e →
        exec (.openChannel p .carriedOut) s = .next (s.answered p e).settle :=
      fun h => answers_of_refuse (exec_openChannel_granted hg) (openChannel_of_refusal h)
    refine ⟨fun range => refused (openRefusal_range (s := s.served (.re p)) (channelOperand_of_range range)), fun c hc => ?_⟩
    have operand : channelOperand ((s.served (.re p)).operand p 0) = some c := channelOperand_of_channel hc
    refine ⟨fun status => refused (openRefusal_badState operand status), fun closed unsuited => ?_, fun closed suited opener => ?_,
      fun closed suited opener detached => ?_, fun closed suited opener attached fields => ?_⟩
    · exact refused (openRefusal_unsuited operand closed (Bool.eq_false_iff.2 fun h => unsuited ((destinationsSuit_iff _).1 h)))
    · exact refused (openRefusal_notDestination operand closed ((destinationsSuit_iff _).2 suited) opener)
    · obtain ⟨q, member, off⟩ := detached
      refine refused (openRefusal_session operand closed ((destinationsSuit_iff _).2 suited) opener (Bool.eq_false_iff.2 fun h => ?_))
      exact Bool.eq_false_iff.1 off ((all_attached_iff _ _).1 h q member)
    · exact refused ((openRefusal_of_attached operand closed ((destinationsSuit_iff _).2 suited) opener
        ((all_attached_iff _ _).2 attached)).trans (if_pos fields))
  · have refused : ∀ {e}, (s.served (.re p)).takeRefusal p = some e →
        exec (.take p .carriedOut) s = .next (s.answered p e).settle :=
      fun h => answers_of_refuse (exec_take_granted hg) (take_of_refusal h)
    refine ⟨fun range => refused (takeRefusal_range (s := s.served (.re p)) (channelOperand_of_range range)), fun c hc => ?_⟩
    have operand : channelOperand ((s.served (.re p)).operand p 0) = some c := channelOperand_of_channel hc
    refine ⟨fun closed => refused (takeRefusal_closed operand closed), fun u opened => ⟨fun other => ?_, fun member quota => ?_⟩⟩
    · exact refused ((takeRefusal_of_opened operand opened).trans (if_pos (by rw [other]; rfl)))
    · have full : (s.served (.re p)).belowQuota p = false := (not_belowQuota_iff s p).2 quota
      exact refused ((takeRefusal_of_opened operand opened).trans (by rw [member, full]; rfl))
  · have refused : ∀ {e}, (s.served (.re p)).closeRefusal p = some e →
        exec (.closeChannel p .carriedOut) s = .next (s.answered p e).settle :=
      fun h => answers_of_refuse (exec_closeChannel_granted hg) (closeChannel_of_refusal h)
    refine ⟨fun range => refused (closeRefusal_range (s := s.served (.re p)) (channelOperand_of_range range)), fun c hc => ?_⟩
    have operand : channelOperand ((s.served (.re p)).operand p 0) = some c := channelOperand_of_channel hc
    refine ⟨fun closed => refused (closeRefusal_closed operand closed), fun u opened other plain => ?_⟩
    have plain' : (s.served (.re p)).supervises p = false := plain
    exact refused ((closeRefusal_of_opened operand opened).trans (by rw [other, plain']; rfl))
  · intro r refusedWith
    have good' : (s.served (.re p)).checkHandle ((s.served (.re p)).operand p 0) = none := good
    have refused : ∀ {e}, (s.served (.re p)).postRefusal p = some e → refusedWith e :=
      fun h => answers_of_refuse (exec_post_granted hg) (post_of_refusal h)
    refine ⟨fun held => refused (postRefusal_notHolder good' held), fun held busy => refused (postRefusal_busy good' held busy),
      fun held idle => ⟨fun range => refused (postRefusal_range good' held idle (channelOperand_of_range range)), fun c hc => ?_⟩⟩
    have operand : channelOperand ((s.served (.re p)).operand p 1) = some c := channelOperand_of_channel hc
    refine ⟨fun closed => refused (postRefusal_closed good' held idle operand closed), fun u opened =>
      ⟨fun other => refused (postRefusal_notSource good' held idle operand opened other),
        fun source long => refused (postRefusal_length good' held idle operand opened source long),
        fun source short policy full remain => ?_⟩⟩
    have full' : (s.served (.re p)).queueFull c = true := (queueFull_iff opened).2 full
    have remain' : (s.served (.re p)).wouldRemain c = true := (wouldRemain_iff opened).2 remain
    exact refused ((postRefusal_of_short good' held idle operand opened source short).trans (by rw [policy, full', remain']; rfl))

end Sys2Proof.Machine
end

section
/-! TAKE, the close of a channel, and the ends of waits (R34, R56, R57, R60 to R63, R70). -/

namespace Sys2Proof.Machine

/-! ## Updates that change nothing -/

theorem modBuf_id (s : State) (b : BufIx) {f : BufRec → BufRec} (h : f (s.buf b) = s.buf b) : s.modBuf b f = s := by
  refine state_ext_get (fun _ => rfl) (fun d => ?_) (fun _ => rfl) rfl
  rw [buf_modBuf]
  split
  · rename_i e
    rw [e, h]
  · rfl

theorem modChan_id (s : State) (c : ChanIx) {f : Chan → Chan} (h : f (s.chan c) = s.chan c) : s.modChan c f = s := by
  refine state_ext_get (fun _ => rfl) (fun _ => rfl) (fun d => ?_) rfl
  rw [chan_modChan]
  split
  · rename_i e
    rw [e, h]
  · rfl

/-! ## TAKE (R56, R57) -/

/-- A port that takes an entry of a channel (R57): what `waitServed` and TAKE write out. -/
def State.takes (s : State) (p : Port) (c : ChanIx) (b : BufIx) : State :=
  let left := maskErase (s.buf b).pending p
  ((s.modBuf b fun r =>
    { r.readBegun p (s.port p).session.readLease with channel := if left = 0 then none else r.channel }).modChan c fun x =>
      { x with queue := if left = 0 then x.queue.erase b else x.queue }).modPort p fun x => { x with charge := x.charge + 1 }

theorem addReader_eq (s : State) (p : Port) (b : BufIx) :
    s.addReader p b = (s.modBuf b fun r => r.readBegun p (s.port p).session.readLease).modPort p fun x =>
      { x with charge := x.charge + 1 } := rfl

theorem addReader_pending (s : State) (p : Port) (b : BufIx) : ((s.addReader p b).buf b).pending = maskErase (s.buf b).pending p := by
  rw [addReader_eq, buf_modPort, buf_modBuf_same]
  rfl

/-- The reader is added, and the entry leaves a queue in which nothing is left pending for it. -/
theorem takes_eq (s : State) (p : Port) (c : ChanIx) (b : BufIx) :
    (if ((s.addReader p b).buf b).pending = 0 then (s.addReader p b).leaveQueue c b else s.addReader p b) = s.takes p c b := by
  rw [addReader_pending, addReader_eq]
  unfold State.takes State.leaveQueue
  by_cases left : maskErase (s.buf b).pending p = 0
  · simp only [left, if_true, modPort_modChan_comm, modChan_modBuf_comm, modPort_modBuf_comm, modBuf_modBuf]
  · simp only [left, if_false]
    rw [modChan_id (f := fun x => { x with queue := x.queue }) _ _ rfl]
    rfl

theorem takes_takeResult (s : State) (p : Port) (c : ChanIx) (b : BufIx) : (s.takes p c b).takeResult b = (s.buf b).takeWords b := by
  unfold State.takes State.takeResult State.handle
  simp only [buf_modPort, buf_modChan, buf_modBuf_same]
  rfl

theorem giveEntry_eq (w : Work) (p : Port) (c : ChanIx) (b : BufIx) (long : Bool) :
    w.giveEntry p c b long = (w.map fun s => s.takes p c b).complete p .ok ((w.state.buf b).takeWords b) long := by
  unfold Work.giveEntry
  simp only [takes_eq, map_state, takes_takeResult]

section
variable {s : State} {p : Port} {c : ChanIx} {u : ChanSetup} (hc : channelOperand (s.operand p 0) = some c)
  (opened : (s.chan c).status = .opened u)
include opened

theorem eligible_of_opened : s.eligible c p =
    if u.kind = .unicast then (s.chan c).queue.head? else (s.chan c).queue.find? fun b => maskHas (s.buf b).pending p := by
  unfold State.eligible
  rw [setup_of_opened opened]
  cases h : u.kind <;> simp [h]

variable (member : maskHas u.destinations p = true) (below : s.belowQuota p = true)
include hc member below

theorem takeRefusal_none : s.takeRefusal p = none := by
  rw [takeRefusal_of_opened hc opened, member, below]
  rfl

theorem take_of_eligible {b : BufIx} (h : s.eligible c p = some b) :
    (Work.start s).take p = (Work.start s).giveEntry p c b false := by
  unfold Work.take
  simp only [Work.start, takeRefusal_none hc opened member below, hc, h]

theorem take_of_empty (h : s.eligible c p = none) (timeout : s.operand p 1 = 0) :
    (Work.start s).take p = (Work.start s).refuse p .queueEmpty := by
  unfold Work.take
  simp only [Work.start, takeRefusal_none hc opened member below, hc, h]
  exact if_pos timeout

theorem take_of_wait (h : s.eligible c p = none) (timeout : s.operand p 1 ≠ 0) :
    (Work.start s).take p =
      (Work.start s).map fun s => (s.beginWait p).modChan c fun x => { x with takeWaiters := maskInsert x.takeWaiters p } := by
  unfold Work.take
  simp only [Work.start, takeRefusal_none hc opened member below, hc, h]
  exact if_neg timeout

end

/-- Settles O24: a TAKE gets the eligible entry, and without one it is answered at once or waits, as its timeout says. -/
theorem takeGivesOrWaits : Obligations.TakeGivesOrWaits := by
  unfold Obligations.TakeGivesOrWaits
  intro p s c u hg hc opened member below q eligible
  have operand : channelOperand ((s.served (.re p)).operand p 0) = some c := channelOperand_of_channel hc
  have quota : (s.served (.re p)).belowQuota p = true := (belowQuota_iff s p).2 below
  have first : (s.served (.re p)).eligible c p = eligible := eligible_of_opened (s := s.served (.re p)) opened
  refine ⟨fun b found => ?_, fun none timeout => ?_, fun none timeout => ?_⟩
  · rw [exec_take_granted hg, take_of_eligible operand opened member quota (first.trans found), giveEntry_eq, finish_completes]
    unfold State.takes
    rw [finish_of_owed_nil rfl, map_state, modPort_modPort]
    rfl
  · exact answers_of_refuse (exec_take_granted hg) (take_of_empty operand opened member quota (first.trans none) timeout)
  · rw [exec_take_granted hg, take_of_wait operand opened member quota (first.trans none) timeout]
    rfl

/-! ## Take service (R59) and the service of a waiting port (R9, R79, R162) -/

theorem leaveTakeWait_takes (s : State) (p : Port) (c : ChanIx) (b : BufIx) :
    ((s.leaveTakeWait c p).takes p c b).modPort p (fun x => x.completes .ok ((s.buf b).takeWords b) true) = s.takesEntry p c b := by
  unfold State.takes State.takesEntry State.leaveTakeWait
  simp only [buf_modChan, port_modChan, modChan_modBuf_comm, modChan_modChan, modPort_modPort]
  rfl

theorem finish_giveEntry (w : Work) (p : Port) (c : ChanIx) (b : BufIx) (long : Bool) :
    (w.giveEntry p c b long).finish = (w.finish.takes p c b).modPort p fun x => x.completes .ok ((w.finish.buf b).takeWords b) long := by
  have taken : (w.map fun s => s.takes p c b).finish = w.finish.takes p c b := by
    refine finish_map fun s q r => ?_
    unfold State.takes
    rw [place_modPort (f := fun x => { x with charge := x.charge + 1 }) ⟨fun _ _ => rfl, fun _ => rfl⟩, place_modChan, place_modBuf,
      place_session, place_buf]
  rw [giveEntry_eq, finish_completes, taken, finish_buf]

theorem finish_eligible (w : Work) (c : ChanIx) (p : Port) : w.finish.eligible c p = w.state.eligible c p := by
  have pending : (fun b => maskHas (w.finish.buf b).pending p) = fun b => maskHas (w.state.buf b).pending p := by
    funext b
    rw [finish_buf]
  unfold State.eligible
  rw [finish_chan, pending]

theorem finish_takeWaitOf (w : Work) (p : Port) : w.finish.takeWaitOf p = w.state.takeWaitOf p := by
  unfold State.takeWaitOf
  simp only [finish_chan]

theorem finish_takeService (w : Work) (p : Port) : (w.takeService p).finish =
    match w.finish.takeWaitOf p with
    | none => w.finish
    | some c =>
      match w.finish.eligible c p with
      | none => w.finish
      | some b => if (w.finish.port p).charge < (w.finish.port p).quota then w.finish.takesEntry p c b else w.finish := by
  unfold Work.takeService
  rw [finish_takeWaitOf]
  cases w.state.takeWaitOf p with
  | none => rfl
  | some c =>
    simp only [finish_eligible, ← belowQuota_iff, finish_belowQuota]
    by_cases below : w.state.belowQuota p = true
    · simp only [below, if_true]
      cases w.state.eligible c p with
      | none => rfl
      | some b =>
        simp only
        rw [finish_giveEntry, finish_map fun s q r => place_leaveTakeWait s c p q r, ← leaveTakeWait_takes]
        rfl
    · simp only [below]
      cases w.state.eligible c p <;> rfl

/-- The service of a port that may wait. -/
theorem finish_serveWaiter (w : Work) (p : Port) (distinct : w.state.claimWait.Nodup) :
    (w.serveWaiter p).finish = w.finish.waitServed p := by
  unfold Work.serveWaiter State.waitServed
  rw [finish_claimWait]
  by_cases waits : p ∈ w.state.claimWait
  · rw [if_pos (List.contains_iff_mem.2 waits), if_pos waits, finish_claimService distinct]
  · rw [if_neg (fun h => waits (List.contains_iff_mem.1 h)), if_neg waits, finish_takeService]
    rfl

/-! ## The ends of waits (R34, R70) -/

theorem mem_allChannels (c : ChanIx) : c ∈ allChannels := List.mem_finRange c

theorem takeWaitOf_none {s : State} {p : Port} (h : ∀ c, maskHas (s.chan c).takeWaiters p = false) : s.takeWaitOf p = none :=
  List.find?_eq_none.2 fun c _ => by simp [h c]

theorem takeWaitOf_some {s : State} {p : Port} {c : ChanIx} (h : maskHas (s.chan c).takeWaiters p = true)
    (once : ∀ d, maskHas (s.chan d).takeWaiters p = true → d = c) : s.takeWaitOf p = some c := by
  unfold State.takeWaitOf
  cases found : allChannels.find? fun c => maskHas (s.chan c).takeWaiters p with
  | none => exact absurd h (List.find?_eq_none.1 found c (mem_allChannels c))
  | some d => rw [once d (List.find?_some (p := fun c => maskHas (s.chan c).takeWaiters p) found)]

theorem leaveWaits_claim {s : State} {p : Port} (h : ∀ c, maskHas (s.chan c).takeWaiters p = false) :
    s.leaveWaits p = s.setClaimWait (s.claimWait.erase p) := by
  have none : (s.setClaimWait (s.claimWait.erase p)).takeWaitOf p = none := takeWaitOf_none h
  unfold State.leaveWaits
  simp only [none]

theorem leaveWaits_take {s : State} {p : Port} {c : ChanIx} (off : p ∉ s.claimWait) (h : maskHas (s.chan c).takeWaiters p = true)
    (once : ∀ d, maskHas (s.chan d).takeWaiters p = true → d = c) : s.leaveWaits p = s.leaveTakeWait c p := by
  have stays : s.setClaimWait (s.claimWait.erase p) = s := by rw [List.erase_of_not_mem off]; rfl
  unfold State.leaveWaits
  simp only [stays, takeWaitOf_some h once]

theorem finish_endWait (s : State) (p : Port) (c : ResultCode) :
    ((Work.start s).endWait p c).finish = (s.leaveWaits p).modPort p fun x => x.completes c res0 true := finish_complete rfl ..

/-- Settles O26: a wait that ends takes its port off the one list or set in which it stands. -/
theorem waitsEnd : Obligations.WaitsEnd := by
  unfold Obligations.WaitsEnd
  intro p s op i code kind hg
  have ends : exec i s = .next (State.settle (((s.served (.re p)).leaveWaits p).modPort p fun x => x.completes code res0 true)) := by
    rcases kind with ⟨rfl, rfl, rfl⟩ | ⟨rfl, rfl, rfl⟩
    · exact congrArg done ((tableOp_granted hg _).trans (finish_endWait ..))
    · exact congrArg done ((tableOp_granted hg _).trans (finish_endWait ..))
  refine ⟨fun waits none => ?_, fun c off waits once => ?_⟩
  · rw [ends, leaveWaits_claim (s := s.served (.re p)) none]
    rfl
  · rw [ends, leaveWaits_take (s := s.served (.re p)) off waits once]
    rfl

end Sys2Proof.Machine
end

section
/-! The close of a channel: its first step, its steps and its last step (R60 to R63). -/

namespace Sys2Proof.Machine

/-! ## The first step (R60) -/

theorem finish_foldl_complete (l : List Port) (w : Work) (c : ResultCode) (r : Vector Word 4) (long : Bool) :
    (l.foldl (fun w q => w.complete q c r long) w).finish =
      l.foldl (fun t q => t.modPort q fun x => x.completes c r long) w.finish := by
  induction l generalizing w with
  | nil => rfl
  | cons q l ih => rw [List.foldl_cons, List.foldl_cons, ih, finish_completes]

theorem finish_closeChannel {s : State} {p : Port} {c : ChanIx} {u : ChanSetup} (hc : channelOperand (s.operand p 0) = some c)
    (opened : (s.chan c).status = .opened u) (accepted : s.closeRefusal p = none) :
    ((Work.start s).closeChannel p).finish =
      (maskPorts (s.chan c).takeWaiters).foldl (fun t q => t.modPort q fun x => x.completes .channelClosed res0 true)
        ((s.modChan c fun x => { x with status := .closing u p, takeWaiters := 0 }).modEngine p fun e =>
          { e with close := some { channel := c, returned := 0, discarded := 0 } }) := by
  have closing : (s.modChan c fun x => { x.closeUnder p with takeWaiters := 0 }) =
      s.modChan c fun x => { x with status := .closing u p, takeWaiters := 0 } :=
    modChan_congr _ _ (by rw [Chan.closeUnder, setup_of_opened opened])
  unfold Work.closeChannel
  simp only [Work.start, accepted, hc]
  rw [finish_foldl_complete, ← closing]
  rfl

/-! ## The later steps (R61 to R63) -/

theorem execCloseStep_granted {s : State} {p : Port} (h : s.grants (.re p) .closeStep = true) (more : s.closeStepIsLast p = false) :
    exec (.closeStep p) s = .next (((Work.start (s.served (.re p))).closeStep p).finish).settle := by
  refine congrArg done ?_
  rw [if_neg (Bool.eq_false_iff.1 more), tableOp_granted h]

theorem execCloseLastStep_granted {s : State} {p : Port} (h : s.grants (.re p) .closeStep = true) (last : s.closeStepIsLast p = true) :
    exec (.closeLastStep p) s = .next (((Work.start (s.served (.re p))).closeStep p).finish).settle := by
  refine congrArg done ?_
  rw [if_pos last, tableOp_granted h]

section
variable {s : State} {p : Port} {g : CloseProgress} (close : (s.port p).engine.close = some g)
include close

theorem closeStep_of_ended (other : (s.chan g.channel).closer ≠ some p) :
    (Work.start s).closeStep p = (Work.start s).closeCompletes p g := by
  have under : s.closingUnder g.channel p = false := by simp [State.closingUnder, other]
  unfold Work.closeStep
  simp only [Work.start, close, under]
  rfl

variable (closer : (s.chan g.channel).closer = some p)
include closer

theorem closeStep_of_empty (empty : (s.chan g.channel).queue = []) :
    (Work.start s).closeStep p = ((Work.start s).map fun s => s.lastCloseStep g.channel p).closeCompletes p g := by
  have under : s.closingUnder g.channel p = true := by simp [State.closingUnder, closer]
  unfold Work.closeStep
  simp only [Work.start, close, under, empty]
  rfl

theorem closeStep_of_entry {b : BufIx} {rest : List BufIx} (queue : (s.chan g.channel).queue = b :: rest) :
    (Work.start s).closeStep p = ((Work.start s).disposeEntry g.channel b).map fun t => t.modEngine p fun e =>
      { e with close := some (g.count (s.disposalAt g.channel b)) } := by
  have under : s.closingUnder g.channel p = true := by simp [State.closingUnder, closer]
  unfold Work.closeStep
  simp only [Work.start, close, under, queue]
  rfl

end

/-! ## Disposal of the head entry (R61) -/

theorem dropEntry_of_head {s : State} {c : ChanIx} {b : BufIx} {rest : List BufIx} (queue : (s.chan c).queue = b :: rest) :
    s.dropEntry c b = s.entryLeaves c b := by
  unfold State.dropEntry State.leaveQueue State.entryLeaves
  rw [modBuf_modBuf, modChan_congr s c (g := fun x => { x with queue := x.queue.tail }) (by simp [queue])]

theorem not_detached_of_attached {s : State} {p : Port} (h : s.attached p = true) : s.sessionState p ≠ .detached := by
  intro off
  rw [State.attached, off] at h
  exact absurd h (by decide)

theorem tellOrigin_eq_originTold (s : State) (k : RecordKind) (c : ChanIx) (b : BufIx) :
    s.tellOrigin k c b = s.originTold k c b := by
  unfold State.tellOrigin State.originTold
  cases (s.buf b).origin with
  | none => rfl
  | some o =>
    by_cases attached : s.attached o = true
    · simp only [attached, if_true, place_attached (not_detached_of_attached attached)]
      rfl
    · simp only [attached]
      rfl

theorem originTold_entryLeaves (s : State) (k : RecordKind) (c : ChanIx) (b : BufIx) :
    (s.entryLeaves c b).originTold k c b = (s.originTold k c b).entryLeaves c b := by
  have buf : (s.entryLeaves c b).buf b = { s.buf b with pending := 0, channel := none } := buf_modBuf_same ..
  unfold State.originTold
  rw [buf]
  cases (s.buf b).origin with
  | none => rfl
  | some o =>
    simp only
    have same : (s.entryLeaves c b).attached o = s.attached o := rfl
    rw [same]
    split <;> rfl

theorem originTold_session (s : State) (k : RecordKind) (c : ChanIx) (b : BufIx) (p : Port) :
    ((s.originTold k c b).port p).session = (s.port p).session := by
  rw [← tellOrigin_eq_originTold]
  unfold State.tellOrigin
  split
  · rfl
  · split
    · exact place_session ..
    · rfl

theorem entryLeaves_buf (s : State) (c : ChanIx) (b : BufIx) :
    (s.entryLeaves c b).buf b = { s.buf b with pending := 0, channel := none } := buf_modBuf_same ..

section
variable {s : State} {c : ChanIx} {b : BufIx} {rest : List BufIx} (queue : (s.chan c).queue = b :: rest)
include queue

theorem disposalAt_of_head : s.disposalAt c b = (s.entryLeaves c b).disposalOf b := by
  rw [State.disposalAt, dropEntry_of_head queue]

theorem disposalAt_kept (readers : (s.buf b).readers ≠ []) : s.disposalAt c b = .kept := by
  rw [disposalAt_of_head queue, State.disposalOf, entryLeaves_buf]
  simp [readers]

theorem disposalAt_returned {o : Port} (readers : (s.buf b).readers = []) (origin : (s.buf b).origin = some o)
    (attached : s.attached o = true) (below : s.belowQuota o = true) : s.disposalAt c b = .returned := by
  have attached' : (s.entryLeaves c b).attached o = true := attached
  have below' : (s.entryLeaves c b).belowQuota o = true := below
  rw [disposalAt_of_head queue, State.disposalOf, entryLeaves_buf]
  simp [readers, origin, attached', below']

theorem disposalAt_discarded (readers : (s.buf b).readers = [])
    (origin : ∀ o, (s.buf b).origin = some o → s.attached o = false ∨ s.belowQuota o = false) : s.disposalAt c b = .discarded := by
  rw [disposalAt_of_head queue, State.disposalOf, entryLeaves_buf]
  cases h : (s.buf b).origin with
  | none => simp [readers]
  | some o =>
    have cannot : ((s.entryLeaves c b).attached o && (s.entryLeaves c b).belowQuota o) = false :=
      Bool.and_eq_false_iff.2 (origin o h)
    simp [readers, cannot]

theorem disposeEntry_kept (kept : s.disposalAt c b = .kept) : ((Work.start s).disposeEntry c b).finish = s.entryLeaves c b := by
  rw [State.disposalAt] at kept
  unfold Work.disposeEntry
  simp only [Work.start, map_state, kept]
  exact dropEntry_of_head queue

theorem disposeEntry_returned {o : Port} (returned : s.disposalAt c b = .returned) (origin : (s.buf b).origin = some o) :
    ((Work.start s).disposeEntry c b).finish = s.entryReturned c b o := by
  have origin' : ((s.entryLeaves c b).buf b).origin = some o := by rw [entryLeaves_buf]; exact origin
  rw [State.disposalAt] at returned
  unfold Work.disposeEntry
  simp only [Work.start, map_state, returned]
  rw [finish_of_owed_nil rfl, map_state, map_state, dropEntry_of_head queue]
  simp only [origin']
  rw [tellOrigin_eq_originTold, originTold_entryLeaves]
  unfold State.returnTo State.entryReturned State.raiseCharge
  rw [show (((s.originTold .returned c b).entryLeaves c b).port o).session = (s.port o).session from originTold_session ..]

theorem disposeEntry_discarded (discarded : s.disposalAt c b = .discarded) :
    ((Work.start s).disposeEntry c b).finish = s.entryDiscarded c b := by
  rw [State.disposalAt] at discarded
  unfold Work.disposeEntry
  simp only [Work.start, map_state, discarded]
  rw [finish_lastUse, finish_of_owed_nil rfl, map_state, map_state, dropEntry_of_head queue, tellOrigin_eq_originTold,
    originTold_entryLeaves]
  rfl

end

/-- Settles O25: the first step of a close, its last step, and its steps on the head entry by what becomes of the buffer. -/
theorem closeSequence : Obligations.CloseSequence := by
  unfold Obligations.CloseSequence
  refine ⟨⟨fun p s c u hg hc opened may _ => ?_, fun p s g u hg close closing empty => ?_⟩, fun p s g hg close =>
    ⟨fun other => ?_, fun b rest closer queue => ?_⟩⟩
  · have operand : channelOperand ((s.served (.re p)).operand p 0) = some c := channelOperand_of_channel hc
    have accepted : (s.served (.re p)).closeRefusal p = none :=
      (closeRefusal_of_opened operand opened).trans (if_pos (Bool.or_eq_true_iff.2 may))
    rw [exec_closeChannel_granted hg, finish_closeChannel operand opened accepted]
    rfl
  · have closer : (s.chan g.channel).closer = some p := by rw [Chan.closer, closing]
    have last : s.closeStepIsLast p = true := by simp [State.closeStepIsLast, State.closingUnder, close, closer, empty]
    rw [execCloseLastStep_granted hg last, closeStep_of_empty (s := s.served (.re p)) close closer empty]
    have destinations : ((Work.start (s.served (.re p))).state.chan g.channel).destinations = u.destinations :=
      destinations_of_setup (x := s.chan g.channel) (by rw [Chan.setup, closing])
    refine congrArg done ((finish_completes ..).trans ?_)
    rw [finish_of_owed_nil rfl, map_state, State.lastCloseStep, destinations]
    rfl
  · have more : s.closeStepIsLast p = false := by simp [State.closeStepIsLast, State.closingUnder, close, other]
    rw [execCloseStep_granted hg more, closeStep_of_ended (s := s.served (.re p)) close other]
    exact congrArg done (finish_complete rfl ..)
  · have more : s.closeStepIsLast p = false := by simp [State.closeStepIsLast, close, queue]
    have step : exec (.closeStep p) s = .next (State.settle
        ((((Work.start (s.served (.re p))).disposeEntry g.channel b).finish).modEngine p fun e =>
          { e with close := some (g.count ((s.served (.re p)).disposalAt g.channel b)) })) := by
      rw [execCloseStep_granted hg more, closeStep_of_entry (s := s.served (.re p)) close closer queue, finish_map_modEngine]
    have queue' : ((s.served (.re p)).chan g.channel).queue = b :: rest := queue
    refine ⟨fun readers => ?_, fun o readers origin attached below => ?_, fun readers origin => ?_⟩
    · have kept := disposalAt_kept queue' readers
      rw [step, disposeEntry_kept queue' kept, kept]
      exact congrArg done (modPort_id _ p (by
        show ({ s.port p with engine := { (s.port p).engine with close := some g } } : PortState) = s.port p
        rw [← close]))
    · have returned := disposalAt_returned queue' readers origin attached ((belowQuota_iff s o).2 below)
      rw [step, disposeEntry_returned queue' returned origin, returned]
      rfl
    · have discarded := disposalAt_discarded queue' readers fun o ho =>
        (origin o ho).imp_right fun full => (not_belowQuota_iff s o).2 full
      rw [step, disposeEntry_discarded queue' discarded, discarded]
      rfl

end Sys2Proof.Machine
end

section
/-! POST (R48 to R55): its steps at the level of `Work`, with the completions of the takers moved to the end. -/

namespace Sys2Proof.Machine

/-! ## The handle that passed its check -/

theorem ofNat_handleIx (h : Word) : BitVec.ofNat 16 (handleIx h).val = (h.setWidth 8).setWidth 16 := by
  refine BitVec.eq_of_toNat_eq ?_
  have small : h.toNat % 256 < 65536 := by omega
  simp [handleIx, Nat.mod_eq_of_lt small]

theorem handleOf_fields (h : Word) (valid : h.getLsbD 15 = true) : handleOf (h.extractLsb' 8 7) (handleIx h) = h := by
  unfold handleOf
  rw [fieldAt_ofBitVec, ofNat_handleIx]
  refine BitVec.eq_of_getLsbD_eq fun j hj => ?_
  simp only [BitVec.getLsbD_or, BitVec.getLsbD_shiftLeft, BitVec.getLsbD_setWidth, BitVec.getLsbD_extractLsb']
  have top : h[15] = true := valid
  interval_cases j <;> simp [top]

/-- The handle of the buffer that a current handle names is that handle. -/
theorem handleOf_of_current {s : State} {h : Word} (good : s.checkHandle h = none) :
    handleOf (s.buf (handleIx h)).generation (handleIx h) = h := by
  obtain ⟨valid, generation⟩ := checkHandle_none_iff.1 good
  rw [handleIx_eq h, ← generation, ← handleIx_eq h, handleOf_fields h valid]

/-! ## Updates that leave the engines alone -/

/-- An update of the state that neither reads nor changes an engine or a configuration. -/
structure EngineApart (f : State → State) : Prop where
  comm : ∀ s q g, f (s.modEngine q g) = (f s).modEngine q g
  engine : ∀ s q, ((f s).port q).engine = (s.port q).engine
  config : ∀ s q, ((f s).port q).config = (s.port q).config

/-- A completion comes to the same before such an update as after it. -/
theorem complete_map {f : State → State} (hf : EngineApart f) (w : Work) (q : Port) (c : ResultCode) (r : Vector Word 4) (long : Bool) :
    (w.complete q c r long).map f = (w.map f).complete q c r long := by
  unfold Work.complete Work.map
  simp only [hf.engine, hf.config, hf.comm]

theorem foldl_complete_map {f : State → State} (hf : EngineApart f) (l : List Port) (w : Work) (c : ResultCode) (r : Vector Word 4)
    (long : Bool) : (l.foldl (fun w q => w.complete q c r long) w).map f =
      l.foldl (fun w q => w.complete q c r long) (w.map f) := by
  induction l generalizing w with
  | nil => rfl
  | cons q l ih => rw [List.foldl_cons, List.foldl_cons, ih, complete_map hf]

theorem engineApart_comp {f g : State → State} (hf : EngineApart f) (hg : EngineApart g) : EngineApart fun s => g (f s) :=
  ⟨fun s q e => by rw [hf.comm, hg.comm], fun s q => by rw [hg.engine, hf.engine], fun s q => by rw [hg.config, hf.config]⟩

theorem engineApart_modBuf (b : BufIx) (f : BufRec → BufRec) : EngineApart fun s => s.modBuf b f :=
  ⟨fun _ _ _ => rfl, fun _ _ => rfl, fun _ _ => rfl⟩

theorem engineApart_modChan (c : ChanIx) (f : Chan → Chan) : EngineApart fun s => s.modChan c f :=
  ⟨fun _ _ _ => rfl, fun _ _ => rfl, fun _ _ => rfl⟩

theorem engineApart_place (p : Port) (r : Record) : EngineApart fun s => s.place p r where
  comm s q g := place_modPort (notesApart_engine g) s q p r
  engine s q := by
    obtain ⟨_, h⟩ := place_port_frame s p q r
    rw [h]
  config s q := by
    obtain ⟨_, h⟩ := place_port_frame s p q r
    rw [h]

theorem engineApart_placeAll (l : List Port) (r : Record) : EngineApart fun s => s.placeAll l r := by
  induction l with
  | nil => exact ⟨fun _ _ _ => rfl, fun _ _ => rfl, fun _ _ => rfl⟩
  | cons p l ih => exact engineApart_comp (engineApart_place p r) ih

/-- The rise of a charge, which a taker's new role is. -/
theorem engineApart_raiseCharge (p : Port) : EngineApart fun s => s.raiseCharge p where
  comm s q g := by
    by_cases h : p = q
    · subst h
      unfold State.raiseCharge
      rw [modEngine_eq_modPort, modEngine_eq_modPort, modPort_modPort, modPort_modPort]
    · exact modPort_comm s (Ne.symm h) _ _
  engine s q := by
    unfold State.raiseCharge
    rw [port_modPort]
    split <;> rename_i h <;> simp [h]
  config s q := by
    unfold State.raiseCharge
    rw [port_modPort]
    split <;> rename_i h <;> simp [h]

/-! ## Direct delivery (R50) -/

/-- What a delivery changes beside its completion: the taker becomes a reader and leaves the take-waiter set. -/
def State.delivers (s : State) (q : Port) (c : ChanIx) (b : BufIx) : State := (s.addReader q b).leaveTakeWait c q

theorem delivers_session (s : State) (q p : Port) (c : ChanIx) (b : BufIx) :
    ((s.delivers q c b).port p).session = (s.port p).session := by
  unfold State.delivers State.leaveTakeWait
  rw [port_modChan, port_addReader_session]

theorem engineApart_delivers (q : Port) (c : ChanIx) (b : BufIx) : EngineApart fun s => s.delivers q c b where
  comm s r g := by
    have session : ((s.modEngine r g).port q).session = (s.port q).session := by
      rw [modEngine_eq_modPort, port_modPort]
      split
      · rename_i h
        rw [h]
      · rfl
    unfold State.delivers State.addReader
    rw [session]
    have raised := (engineApart_raiseCharge q).comm (s.modBuf b fun r =>
      { r with readers := r.readers ++ [{ port := q, lease := leaseOf (s.port q).session.readLease }],
               pending := maskErase r.pending q }) r g
    exact congrArg (fun t : State => t.leaveTakeWait c q) raised
  engine s r := (engineApart_raiseCharge q).engine ..
  config s r := (engineApart_raiseCharge q).config ..

theorem delivers_belowQuota {s : State} {p q : Port} (h : p ≠ q) (c : ChanIx) (b : BufIx) :
    (s.delivers q c b).belowQuota p = s.belowQuota p := by
  unfold State.delivers State.leaveTakeWait State.addReader State.raiseCharge State.belowQuota
  rw [port_modChan, port_modPort_other _ h]
  rfl

theorem delivers_takeWords (s : State) (q : Port) (c : ChanIx) (b : BufIx) :
    ((s.delivers q c b).buf b).takeWords b = (s.buf b).takeWords b := by
  unfold State.delivers State.leaveTakeWait
  rw [buf_modChan, addReader_eq, buf_modPort, buf_modBuf_same]
  rfl

theorem deliver_below {w : Work} {q : Port} (h : w.state.belowQuota q = true) (c : ChanIx) (b : BufIx) :
    w.deliver q c b = (w.map fun s => s.delivers q c b).complete q .ok ((w.state.buf b).takeWords b) true := by
  unfold Work.deliver
  rw [if_pos h, ← delivers_takeWords w.state q c b]
  rfl

theorem deliver_full {w : Work} {q : Port} (h : w.state.belowQuota q = false) (c : ChanIx) (b : BufIx) : w.deliver q c b = w := by
  unfold Work.deliver
  rw [if_neg (Bool.eq_false_iff.1 h)]

theorem complete_belowQuota (w : Work) (q p : Port) (c : ResultCode) (r : Vector Word 4) (long : Bool) :
    (w.complete q c r long).state.belowQuota p = w.state.belowQuota p := by
  unfold Work.complete State.belowQuota
  rw [modEngine_eq_modPort, port_modPort]
  split
  · rename_i h
    rw [h]
  · rfl

/-- Delivery to several ports, all but their completions. -/
def State.deliversAll (s : State) (takers : List Port) (c : ChanIx) (b : BufIx) : State :=
  takers.foldl (fun s q => s.delivers q c b) s

theorem engineApart_deliversAll (takers : List Port) (c : ChanIx) (b : BufIx) :
    EngineApart fun s => s.deliversAll takers c b := by
  induction takers with
  | nil => exact ⟨fun _ _ _ => rfl, fun _ _ => rfl, fun _ _ => rfl⟩
  | cons q takers ih => exact engineApart_comp (engineApart_delivers q c b) ih

/-- Delivery to distinct ports: the takers are those below their quotas, and their completions come last. -/
theorem foldl_deliver (l : List Port) (w : Work) (distinct : l.Nodup) (c : ChanIx) (b : BufIx) {words : Vector Word 4}
    (hw : (w.state.buf b).takeWords b = words) :
    l.foldl (fun w q => w.deliver q c b) w =
      (l.filter w.state.belowQuota).foldl (fun w q => w.complete q .ok words true)
        (w.map fun s => s.deliversAll (l.filter w.state.belowQuota) c b) := by
  induction l generalizing w with
  | nil => rfl
  | cons q l ih =>
    obtain ⟨hq, distinct'⟩ := List.nodup_cons.1 distinct
    rw [List.foldl_cons]
    by_cases below : w.state.belowQuota q = true
    · have others : l.filter (w.deliver q c b).state.belowQuota = l.filter w.state.belowQuota := by
        refine List.filter_congr fun p hp => ?_
        rw [deliver_below below, complete_belowQuota]
        exact delivers_belowQuota (fun e : p = q => hq (e ▸ hp)) c b
      have words' : ((w.deliver q c b).state.buf b).takeWords b = words := by
        rw [deliver_below below]
        exact (delivers_takeWords w.state q c b).trans hw
      rw [ih _ distinct' words', others, List.filter_cons_of_pos below, List.foldl_cons, deliver_below below,
        complete_map (engineApart_deliversAll _ c b), hw]
      rfl
    · rw [deliver_full (Bool.eq_false_iff.2 below), ih w distinct' hw, List.filter_cons_of_neg below]

/-! ## What delivery comes to -/

def BufRec.readsBegun (r : BufRec) (s : State) (takers : List Port) : BufRec :=
  { r with
    readers := r.readers ++ takers.map fun q => { port := q, lease := leaseOf (s.port q).session.readLease }
    pending := r.pending &&& ~~~maskOf takers }

theorem maskErase_and_not (m : PortMask) (q : Port) (l : List Port) :
    maskErase m q &&& ~~~maskOf l = m &&& ~~~maskOf (q :: l) := by
  refine mask_ext fun p => ?_
  by_cases h : p = q <;> simp [h]

theorem delivers_modBuf_modChan (s : State) (q : Port) (c : ChanIx) (b : BufIx) (f : BufRec → BufRec) (g : Chan → Chan) :
    ((s.delivers q c b).modBuf b f).modChan c g =
      ((s.modBuf b fun r => f (r.readBegun q (s.port q).session.readLease)).modChan c fun x =>
        g { x with takeWaiters := maskErase x.takeWaiters q }).raiseCharge q := by
  unfold State.delivers State.leaveTakeWait State.raiseCharge
  rw [addReader_eq]
  simp only [modPort_modChan_comm, modChan_modBuf_comm, modPort_modBuf_comm, modBuf_modBuf, modChan_modChan]

/-- All deliveries together: the record's new readers and pending set, the take-waiter set, and the charges. -/
theorem deliversAll_eq (takers : List Port) (s : State) (c : ChanIx) (b : BufIx) :
    s.deliversAll takers c b =
      takers.foldl (fun t q => t.raiseCharge q)
        ((s.modBuf b fun r => r.readsBegun s takers).modChan c fun x => { x with takeWaiters := x.takeWaiters &&& ~~~maskOf takers }) := by
  induction takers generalizing s with
  | nil =>
    have all : ∀ m : PortMask, m &&& ~~~maskOf [] = m := fun m => mask_ext fun p => by simp
    refine ((modChan_id _ c ?_).trans (modBuf_id s b ?_)).symm
    · rw [all]
    · simp [BufRec.readsBegun, all]
  | cons q takers ih =>
    have begun : ∀ r : BufRec, (r.readBegun q (s.port q).session.readLease).readsBegun (s.delivers q c b) takers =
        r.readsBegun s (q :: takers) := by
      intro r
      unfold BufRec.readsBegun BufRec.readBegun
      simp only [maskErase_and_not, List.map_cons, List.append_assoc, List.singleton_append, delivers_session]
    have first : ((s.delivers q c b).modBuf b fun r => r.readsBegun (s.delivers q c b) takers).modChan c (fun x =>
        { x with takeWaiters := x.takeWaiters &&& ~~~maskOf takers }) =
          (((s.modBuf b fun r => r.readsBegun s (q :: takers)).modChan c fun x =>
            { x with takeWaiters := x.takeWaiters &&& ~~~maskOf (q :: takers) }).raiseCharge q) := by
      rw [delivers_modBuf_modChan]
      simp only [begun, maskErase_and_not]
    exact (ih _).trans (congrArg (fun t : State => takers.foldl (fun t q => t.raiseCharge q) t) first)

end Sys2Proof.Machine
end

section
/-! POST without and with a displacement: O22 and O23 (R49 to R55). -/

namespace Sys2Proof.Machine

/-! ## Completions after charges -/

theorem foldl_modPort_other (f : Port → PortState → PortState) (g : PortState → PortState) {q : Port} {l : List Port} (h : q ∉ l)
    (s : State) : (l.foldl (fun t r => t.modPort r (f r)) s).modPort q g = l.foldl (fun t r => t.modPort r (f r)) (s.modPort q g) := by
  induction l generalizing s with
  | nil => rfl
  | cons r l ih =>
    obtain ⟨hr, hl⟩ := not_or.1 (fun e => h (List.mem_cons.2 e))
    rw [List.foldl_cons, List.foldl_cons, ih hl, modPort_comm s (Ne.symm hr)]

theorem foldl_modPort_foldl (f g : Port → PortState → PortState) {l : List Port} (distinct : l.Nodup) (s : State) :
    l.foldl (fun t r => t.modPort r (g r)) (l.foldl (fun t r => t.modPort r (f r)) s) =
      l.foldl (fun t r => t.modPort r fun x => g r (f r x)) s := by
  induction l generalizing s with
  | nil => rfl
  | cons q l ih =>
    obtain ⟨hq, distinct'⟩ := List.nodup_cons.1 distinct
    rw [List.foldl_cons, List.foldl_cons, List.foldl_cons, foldl_modPort_other f (g q) hq, modPort_modPort, ih distinct']

/-! ## Joining the queue (R51, R54) -/

/-- An update that leaves alone what the joining of a queue reads. -/
theorem arrivalPorts_congr {s t : State} {c : ChanIx} {b : BufIx} (chan : t.chan c = s.chan c) (buf : ∀ d, t.buf d = s.buf d)
    (attached : ∀ p, t.attached p = s.attached p) : t.arrivalPorts c b = s.arrivalPorts c b := by
  unfold State.arrivalPorts
  simp only [chan, buf, attached]

theorem attached_modPort (s : State) (p q : Port) {f : PortState → PortState} (hf : ∀ x, (f x).session.state = x.session.state) :
    (s.modPort p f).attached q = s.attached q := by
  unfold State.attached
  rw [sessionState_modPort s p q hf]

theorem placeAll_modPort {f : PortState → PortState} (hf : NotesApart f) (l : List Port) (s : State) (q : Port) (r : Record) :
    (s.modPort q f).placeAll l r = (s.placeAll l r).modPort q f := by
  unfold State.placeAll
  induction l generalizing s with
  | nil => rfl
  | cons p l ih => rw [List.foldl_cons, List.foldl_cons, place_modPort hf, ih]

theorem joinQueue_modPort {f : PortState → PortState} (hf : NotesApart f) (s : State) (q : Port) (c : ChanIx) (b : BufIx) (head : Bool) :
    (s.modPort q f).joinQueue c b head = (s.joinQueue c b head).modPort q f := by
  unfold State.joinQueue
  rw [arrivalPorts_congr (s := s) (chan_modPort ..) (buf_modPort s q f) fun p => attached_modPort s q p hf.session,
    modPort_modChan_comm, placeAll_modPort hf]

theorem placeAll_frame (l : List Port) (s : State) (r : Record) (p : Port) :
    ∃ n, (s.placeAll l r).port p = { s.port p with notes := n } := by
  unfold State.placeAll
  induction l generalizing s with
  | nil => exact ⟨_, rfl⟩
  | cons q l ih =>
    obtain ⟨m, hm⟩ := place_port_frame s q p r
    obtain ⟨n, hn⟩ := ih (s.place q r)
    exact ⟨n, by rw [List.foldl_cons, hn, hm]⟩

theorem engineApart_joinQueue (c : ChanIx) (b : BufIx) (head : Bool) : EngineApart fun s => s.joinQueue c b head where
  comm s q g := joinQueue_modPort (notesApart_engine g) s q c b head
  engine _ q := (engineApart_placeAll _ _).engine _ q
  config _ q := (engineApart_placeAll _ _).config _ q

theorem foldl_raiseCharge_joinQueue (l : List Port) (s : State) (c : ChanIx) (b : BufIx) (head : Bool) :
    (l.foldl (fun t q => t.raiseCharge q) s).joinQueue c b head = l.foldl (fun t q => t.raiseCharge q) (s.joinQueue c b head) := by
  induction l generalizing s with
  | nil => rfl
  | cons q l ih =>
    rw [List.foldl_cons, List.foldl_cons, ih]
    exact congrArg (fun t : State => l.foldl (fun t q => t.raiseCharge q) t)
      (joinQueue_modPort (f := fun x => { x with charge := x.charge + 1 }) ⟨fun _ _ => rfl, fun _ => rfl⟩ s q c b head)

/-! ## An accepted POST -/

/-- A POST's state before its records: the holding ended, the record prepared, the takers' roles begun, and the queue as it will stand. -/
def State.posted (s : State) (p : Port) (c : ChanIx) (queue : List BufIx) : State :=
  ((s.modBuf (handleIx (s.operand p 0)) fun r =>
    { r with
      length := (s.operand p 2).toNat, tag := s.operand p 3, origin := some p, holder := none, pending := s.leftPending c
      channel := if s.leftPending c = 0 then none else some c
      readers := r.readers ++ (s.takersAt c).map fun q => { port := q, lease := leaseOf (s.port q).session.readLease } }).modChan c
        fun x =>
          { x with
            takeWaiters := x.takeWaiters &&& ~~~maskOf (s.takersAt c)
            queue := if s.leftPending c = 0 then queue else if s.headFlag p then handleIx (s.operand p 0) :: queue
              else queue ++ [handleIx (s.operand p 0)] }).modPort p fun x => x.givesUp (handleIx (s.operand p 0))

/-- The destinations told of an arrival in a queue (R54). -/
def State.toldAt (s : State) (c : ChanIx) (u : ChanSetup) (queue : List BufIx) : List Port :=
  (maskPorts (s.leftPending c)).filter fun d =>
    s.attached d && (u.notice == .every || !queue.any fun e => maskHas (s.buf e).pending d)

theorem posts_eq (s : State) (p : Port) (c : ChanIx) (u : ChanSetup) (queue : List BufIx) : s.posts p c u queue =
    (s.takersAt c).foldl
      (fun t q => t.modPort q fun x =>
        ({ x with charge := x.charge + 1 } : PortState).completes .ok
          (res4 (s.operand p 0) (s.operand p 2) (s.operand p 3) (BitVec.ofNat 16 p.val)) true)
      ((s.posted p c queue).placeAll (s.toldAt c u queue) (mkRecord .arrival c.val 1)) := rfl

/-- The record that a POST prepares and its takers begin to read. -/
def State.handedRecord (s : State) (p : Port) (c : ChanIx) (r : BufRec) : BufRec :=
  { r with
    length := (s.operand p 2).toNat, tag := s.operand p 3, origin := some p, holder := none, pending := s.leftPending c
    channel := some c
    readers := r.readers ++ (s.takersAt c).map fun q => { port := q, lease := leaseOf (s.port q).session.readLease } }

/-- A POST's state before it goes on by the pending set: the takers have the buffer, and the channel has their waits off. -/
def State.handed (s : State) (p : Port) (c : ChanIx) : State :=
  ((s.modBuf (handleIx (s.operand p 0)) (s.handedRecord p c)).modChan c fun x =>
    { x with takeWaiters := x.takeWaiters &&& ~~~maskOf (s.takersAt c) }).modPort p fun x => x.givesUp (handleIx (s.operand p 0))

theorem postRecord_eq (s : State) (p : Port) (b : BufIx) (c : ChanIx) : s.postRecord p b c =
    (s.modBuf b fun r =>
      { r with
        length := (s.operand p 2).toNat, tag := s.operand p 3, origin := some p, holder := none
        pending := (s.chan c).destinations, channel := some c }).modPort p fun x => x.givesUp b := givesUp_of_unmap ..

theorem postRecord_session (s : State) (p q : Port) (b : BufIx) (c : ChanIx) :
    ((s.postRecord p b c).port q).session = (s.port q).session := by
  rw [postRecord_eq, port_modPort]
  split
  · rename_i h
    rw [h]
    rfl
  · rfl

theorem postRecord_takers {s : State} {p : Port} {c : ChanIx} (b : BufIx) (off : maskHas (s.chan c).takeWaiters p = false) :
    (maskPorts (((s.postRecord p b c).chan c).takeWaiters &&& ((s.postRecord p b c).chan c).destinations)).filter
      (s.postRecord p b c).belowQuota = s.takersAt c := by
  refine List.filter_congr fun q hq => ?_
  have other : q ≠ p := by
    rintro rfl
    simp [postRecord_eq, off] at hq
  rw [postRecord_eq, belowQuota_modPort_of_other _ other]
  rfl

theorem readsBegun_postRecord (s : State) (p : Port) (c : ChanIx) (b : BufIx) (r : BufRec) :
    BufRec.readsBegun { r with
      length := (s.operand p 2).toNat, tag := s.operand p 3, origin := some p, holder := none
      pending := (s.chan c).destinations, channel := some c } (s.postRecord p b c) (s.takersAt c) = s.handedRecord p c r := by
  unfold BufRec.readsBegun State.handedRecord
  simp only [postRecord_session]
  rfl

theorem postRecord_modBuf_modChan (s : State) (p : Port) (c : ChanIx) (b : BufIx) (f : BufRec → BufRec) (g : Chan → Chan) :
    ((s.postRecord p b c).modBuf b f).modChan c g =
      ((s.modBuf b fun r => f { r with
        length := (s.operand p 2).toNat, tag := s.operand p 3, origin := some p, holder := none
        pending := (s.chan c).destinations, channel := some c }).modChan c g).modPort p fun x => x.givesUp b := by
  rw [postRecord_eq, modPort_modBuf_comm, modPort_modChan_comm, modBuf_modBuf]

/-- The deliveries of a POST, all but the takers' charges. -/
theorem postRecord_deliversAll (s : State) (p : Port) (c : ChanIx) :
    (s.postRecord p (handleIx (s.operand p 0)) c).deliversAll (s.takersAt c) c (handleIx (s.operand p 0)) =
      (s.takersAt c).foldl (fun t q => t.raiseCharge q) (s.handed p c) := by
  rw [deliversAll_eq]
  refine congrArg (fun t : State => (s.takersAt c).foldl (fun t q => t.raiseCharge q) t) ?_
  rw [postRecord_modBuf_modChan]
  simp only [readsBegun_postRecord]
  rfl

/-! ## The pending set decides (R51) -/

theorem handed_buf (s : State) (p : Port) (c : ChanIx) : (s.handed p c).buf (handleIx (s.operand p 0)) =
    s.handedRecord p c (s.buf (handleIx (s.operand p 0))) := by
  unfold State.handed
  rw [buf_modPort, buf_modChan, buf_modBuf_same]

theorem handed_buf_other {s : State} {p : Port} {c : ChanIx} {d : BufIx} (h : d ≠ handleIx (s.operand p 0)) :
    (s.handed p c).buf d = s.buf d := by
  unfold State.handed
  rw [buf_modPort, buf_modChan, buf_modBuf_other _ h]

theorem handed_chan (s : State) (p : Port) (c : ChanIx) : (s.handed p c).chan c =
    { s.chan c with takeWaiters := (s.chan c).takeWaiters &&& ~~~maskOf (s.takersAt c) } := by
  unfold State.handed
  rw [chan_modPort, chan_modChan_same]
  rfl

theorem handed_attached (s : State) (p q : Port) (c : ChanIx) : (s.handed p c).attached q = s.attached q := by
  unfold State.handed
  exact attached_modPort _ _ _ fun _ => rfl

/-- Nothing pending: the channel field is emptied, and the buffer joins no queue. -/
theorem handed_unqueued {s : State} {p : Port} {c : ChanIx} (nothing : s.leftPending c = 0) :
    (s.handed p c).modBuf (handleIx (s.operand p 0)) (fun r => { r with channel := none }) = s.posted p c (s.chan c).queue := by
  unfold State.handed State.posted
  rw [modPort_modBuf_comm, modChan_modBuf_comm, modBuf_modBuf]
  simp only [if_pos nothing]
  rfl

/-- With ports pending: the buffer joins the queue. -/
theorem handed_joinQueue {s : State} {p : Port} {c : ChanIx} {u : ChanSetup} (left : s.leftPending c ≠ 0)
    (opened : (s.chan c).status = .opened u) (off : handleIx (s.operand p 0) ∉ (s.chan c).queue) :
    (s.handed p c).joinQueue c (handleIx (s.operand p 0)) (s.headFlag p) =
      (s.posted p c (s.chan c).queue).placeAll (s.toldAt c u (s.chan c).queue) (mkRecord .arrival c.val 1) := by
  have queued : (s.handed p c).modChan c (fun x =>
      { x with queue := if s.headFlag p then handleIx (s.operand p 0) :: x.queue else x.queue ++ [handleIx (s.operand p 0)] }) =
        s.posted p c (s.chan c).queue := by
    unfold State.handed State.posted
    rw [modPort_modChan_comm, modChan_modChan]
    simp only [if_neg left]
    rfl
  have told : (s.handed p c).arrivalPorts c (handleIx (s.operand p 0)) = s.toldAt c u (s.chan c).queue := by
    have setup : ((s.handed p c).chan c).setup = some u := by rw [handed_chan]; exact setup_of_opened opened
    have queue : ((s.handed p c).chan c).queue = (s.chan c).queue := by rw [handed_chan]
    have waits : ∀ q, ((s.chan c).queue.any fun d => maskHas ((s.handed p c).buf d).pending q) =
        (s.chan c).queue.any fun d => maskHas (s.buf d).pending q := fun q => by
      refine Bool.eq_iff_iff.2 ?_
      simp only [List.any_eq_true]
      exact exists_congr fun d => and_congr_right fun hd => by rw [handed_buf_other fun e => off (e ▸ hd)]
    unfold State.arrivalPorts State.toldAt
    rw [handed_buf, setup, queue]
    refine List.filter_congr fun q _ => ?_
    rw [waits, handed_attached, Option.any_some]
    cases u.notice <;> rfl
  unfold State.joinQueue
  rw [queued, told]

/-! ## The whole operation -/

/-- Delivery from a state: the takers are those below their quotas, and their completions come last. -/
theorem deliverAll_start (t : State) (c : ChanIx) (b : BufIx) {words : Vector Word 4} (hw : (t.buf b).takeWords b = words) :
    (Work.start t).deliverAll c b =
      ((maskPorts ((t.chan c).takeWaiters &&& (t.chan c).destinations)).filter t.belowQuota).foldl
        (fun w q => w.complete q .ok words true)
        (Work.start (t.deliversAll ((maskPorts ((t.chan c).takeWaiters &&& (t.chan c).destinations)).filter t.belowQuota) c b)) :=
  foldl_deliver _ (Work.start t) (maskPorts_nodup _) c b hw

section
variable {s : State} {p : Port} {c : ChanIx} {u : ChanSetup} (good : s.checkHandle (s.operand p 0) = none)
  (held : (s.buf (handleIx (s.operand p 0))).heldBy p = true) (idle : (s.buf (handleIx (s.operand p 0))).bulkCount = 0)
  (hc : channelOperand (s.operand p 1) = some c) (opened : (s.chan c).status = .opened u)
  (source : maskHas u.sources p = true) (short : (s.operand p 2).toNat ≤ 512)

include good held idle hc opened source short in
theorem post_of_accepted (room : (u.policy = .refuse && s.queueFull c && s.wouldRemain c) = false) :
    (Work.start s).post p =
      let w := ((Work.start (s.postRecord p (handleIx (s.operand p 0)) c)).deliverAll c
        (handleIx (s.operand p 0))).postFinish c (handleIx (s.operand p 0)) (s.headFlag p)
      w.complete p .ok (res1 (BitVec.ofNat 16 (w.state.chan c).queue.length)) false := by
  have accepted : s.postRefusal p = none :=
    (postRefusal_of_short good held idle hc opened source short).trans (if_neg (Bool.eq_false_iff.1 room))
  unfold Work.post
  simp only [Work.start, accepted, hc]
  rfl

include good in
/-- The words that a taker of a POST gets. -/
theorem postRecord_takeWords : ((s.postRecord p (handleIx (s.operand p 0)) c).buf (handleIx (s.operand p 0))).takeWords
    (handleIx (s.operand p 0)) = res4 (s.operand p 0) (s.operand p 2) (s.operand p 3) (BitVec.ofNat 16 p.val) := by
  rw [postRecord_eq, buf_modPort, buf_modBuf_same, BufRec.takeWords]
  show res4 (handleOf (s.buf (handleIx (s.operand p 0))).generation (handleIx (s.operand p 0)))
    (BitVec.ofNat 16 (s.operand p 2).toNat) (s.operand p 3) (BitVec.ofNat 16 p.val) = _
  rw [handleOf_of_current good, BitVec.ofNat_toNat, BitVec.setWidth_eq]

include good in
/-- The takers have the buffer, and their completions come last. -/
theorem deliverAll_postRecord (off : maskHas (s.chan c).takeWaiters p = false) :
    (Work.start (s.postRecord p (handleIx (s.operand p 0)) c)).deliverAll c (handleIx (s.operand p 0)) =
      (s.takersAt c).foldl (fun w q => w.complete q .ok
        (res4 (s.operand p 0) (s.operand p 2) (s.operand p 3) (BitVec.ofNat 16 p.val)) true)
        (Work.start ((s.takersAt c).foldl (fun t q => t.raiseCharge q) (s.handed p c))) := by
  rw [deliverAll_start _ c _ (postRecord_takeWords good), postRecord_takers _ off, postRecord_deliversAll]

end

theorem takersAt_nodup (s : State) (c : ChanIx) : (s.takersAt c).Nodup := List.Nodup.filter _ (maskPorts_nodup _)

theorem foldl_complete_chan (l : List Port) (w : Work) (e : ResultCode) (r : Vector Word 4) (long : Bool) (c : ChanIx) :
    ((l.foldl (fun w q => w.complete q e r long) w).state.chan c) = w.state.chan c := by
  induction l generalizing w with
  | nil => rfl
  | cons q l ih => rw [List.foldl_cons, ih]; rfl

theorem foldl_complete_buf (l : List Port) (w : Work) (e : ResultCode) (r : Vector Word 4) (long : Bool) (b : BufIx) :
    ((l.foldl (fun w q => w.complete q e r long) w).state.buf b) = w.state.buf b := by
  induction l generalizing w with
  | nil => rfl
  | cons q l ih => rw [List.foldl_cons, ih]; rfl

theorem foldl_raiseCharge_chan (l : List Port) (s : State) (c : ChanIx) : (l.foldl (fun t q => t.raiseCharge q) s).chan c = s.chan c := by
  induction l generalizing s with
  | nil => rfl
  | cons q l ih => rw [List.foldl_cons, ih]; rfl

theorem foldl_raiseCharge_buf (l : List Port) (s : State) (b : BufIx) : (l.foldl (fun t q => t.raiseCharge q) s).buf b = s.buf b := by
  induction l generalizing s with
  | nil => rfl
  | cons q l ih => rw [List.foldl_cons, ih]; rfl

theorem posted_queue (s : State) (p : Port) (c : ChanIx) (queue : List BufIx) : ((s.posted p c queue).chan c).queue =
    if s.leftPending c = 0 then queue else if s.headFlag p then handleIx (s.operand p 0) :: queue
      else queue ++ [handleIx (s.operand p 0)] := by
  unfold State.posted
  rw [chan_modPort, chan_modChan_same]

theorem foldl_raiseCharge_modBuf (l : List Port) (s : State) (b : BufIx) (f : BufRec → BufRec) :
    (l.foldl (fun t q => t.raiseCharge q) s).modBuf b f = l.foldl (fun t q => t.raiseCharge q) (s.modBuf b f) := by
  induction l generalizing s with
  | nil => rfl
  | cons q l ih => rw [List.foldl_cons, List.foldl_cons, ih]; rfl

theorem placeAll_chan (l : List Port) (s : State) (r : Record) (c : ChanIx) : (s.placeAll l r).chan c = s.chan c := by
  rw [State.chan, State.chan, placeAll_channels]

/-- The takers' charges and completions, after all else that a POST does before its own completion. -/
theorem foldl_taken (l : List Port) (distinct : l.Nodup) (s : State) (r : Vector Word 4) :
    (l.foldl (fun w q => w.complete q .ok r true) (Work.start (l.foldl (fun t q => t.raiseCharge q) s))).finish =
      l.foldl (fun t q => t.modPort q fun x => ({ x with charge := x.charge + 1 } : PortState).completes .ok r true) s := by
  rw [finish_foldl_complete]
  exact foldl_modPort_foldl (fun _ x => { x with charge := x.charge + 1 }) (fun _ x => x.completes .ok r true) distinct s

theorem postFinish_unqueued {w : Work} {c : ChanIx} {b : BufIx} {head : Bool} (h : (w.state.buf b).pending = 0) :
    w.postFinish c b head = w.map fun s => s.modBuf b fun r => { r with channel := none } := by
  unfold Work.postFinish
  rw [if_pos h]

theorem postFinish_queued {w : Work} {c : ChanIx} {b : BufIx} {head : Bool} (h : (w.state.buf b).pending ≠ 0) :
    w.postFinish c b head = (w.displace c).map fun s => s.joinQueue c b head := by
  unfold Work.postFinish
  rw [if_neg h]

theorem displace_of_room {w : Work} {c : ChanIx} (h : w.state.queueFull c = false) : w.displace c = w := by
  unfold Work.displace
  rw [h, Bool.and_false, if_neg Bool.false_ne_true]

theorem queueFull_congr {s t : State} {c : ChanIx} (setup : (t.chan c).setup = (s.chan c).setup)
    (queue : (t.chan c).queue = (s.chan c).queue) : t.queueFull c = s.queueFull c := by
  unfold State.queueFull
  rw [setup, queue]

/-- What a POST leaves to the end of its table operation: the takers' completions are owed, and nothing else. -/
theorem post_pending (l : List Port) (s : State) (p : Port) (c : ChanIx) (r : Vector Word 4) :
    ((l.foldl (fun w q => w.complete q .ok r true)
      (Work.start (l.foldl (fun t q => t.raiseCharge q) (s.handed p c)))).state.buf (handleIx (s.operand p 0))).pending =
        s.leftPending c := by
  rw [foldl_complete_buf, show (Work.start (l.foldl (fun t q => t.raiseCharge q) (s.handed p c))).state =
    l.foldl (fun t q => t.raiseCharge q) (s.handed p c) from rfl, foldl_raiseCharge_buf, handed_buf]
  rfl

theorem mem_takersAt (s : State) (c : ChanIx) (q : Port) : q ∈ s.takersAt c ↔
    (maskHas (s.chan c).takeWaiters q = true ∧ maskHas (s.chan c).destinations q = true) ∧ s.belowQuota q = true := by
  simp [State.takersAt]

/-- With nothing left pending no destination remains. -/
theorem wouldRemain_of_left {s : State} {c : ChanIx} (nothing : s.leftPending c = 0) : s.wouldRemain c = false := by
  refine List.any_eq_false.2 fun q hq => ?_
  have taken : q ∈ s.takersAt c := by
    have gone := (mask_eq_zero_iff _).1 nothing q
    rw [State.leftPending, maskHas_and, (mem_maskPorts _ _).1 hq] at gone
    simpa using gone
  obtain ⟨⟨waits, _⟩, below⟩ := (mem_takersAt s c q).1 taken
  simp [waits, below]

theorem maskPorts_zero : maskPorts 0 = [] := by decide

section
variable {s : State} {p : Port} {c : ChanIx} {u : ChanSetup} (good : s.checkHandle (s.operand p 0) = none)
  (held : (s.buf (handleIx (s.operand p 0))).heldBy p = true) (idle : (s.buf (handleIx (s.operand p 0))).bulkCount = 0)
  (hc : channelOperand (s.operand p 1) = some c) (opened : (s.chan c).status = .opened u)
  (source : maskHas u.sources p = true) (short : (s.operand p 2).toNat ≤ 512)
  (off : maskHas (s.chan c).takeWaiters p = false)
include good held idle hc opened source short off

/-- A POST that leaves nothing pending. -/
theorem finish_post_unqueued (room : (u.policy = .refuse && s.queueFull c && s.wouldRemain c) = false) (nothing : s.leftPending c = 0) :
    ((Work.start s).post p).finish =
      (s.posts p c u (s.chan c).queue).modPort p fun x => x.completes .ok (res4 (BitVec.ofNat 16 (s.chan c).queue.length) 0 0 0) false := by
  rw [post_of_accepted good held idle hc opened source short room, deliverAll_postRecord good off,
    postFinish_unqueued ((post_pending ..).trans nothing), foldl_complete_map (engineApart_modBuf _ _)]
  have state : (Work.start ((s.takersAt c).foldl (fun t q => t.raiseCharge q) (s.handed p c))).map
      (fun t => t.modBuf (handleIx (s.operand p 0)) fun r => { r with channel := none }) =
        Work.start ((s.takersAt c).foldl (fun t q => t.raiseCharge q) (s.posted p c (s.chan c).queue)) := by
    rw [← handed_unqueued nothing, ← foldl_raiseCharge_modBuf]
    rfl
  have queue : ((Work.start ((s.takersAt c).foldl (fun t q => t.raiseCharge q) (s.posted p c (s.chan c).queue))).state.chan c).queue =
      (s.chan c).queue := by
    rw [start_state, foldl_raiseCharge_chan, posted_queue, if_pos nothing]
  simp only [state, foldl_complete_chan, queue]
  rw [finish_completes, foldl_taken _ (takersAt_nodup s c), posts_eq, State.toldAt, nothing, maskPorts_zero]
  rfl

/-- A POST that finds room in the queue. -/
theorem finish_post_queued (room : (s.chan c).queue.length < u.capacity) (left : s.leftPending c ≠ 0)
    (fresh : handleIx (s.operand p 0) ∉ (s.chan c).queue) :
    ((Work.start s).post p).finish =
      (s.posts p c u (s.chan c).queue).modPort p fun x =>
        x.completes .ok (res4 (BitVec.ofNat 16 ((s.chan c).queue.length + 1)) 0 0 0) false := by
  have notFull : s.queueFull c = false := Bool.eq_false_iff.2 fun h => Nat.not_le.2 room ((queueFull_iff opened).1 h)
  have notFull' : ((s.takersAt c).foldl (fun w q => w.complete q .ok
      (res4 (s.operand p 0) (s.operand p 2) (s.operand p 3) (BitVec.ofNat 16 p.val)) true)
        (Work.start ((s.takersAt c).foldl (fun t q => t.raiseCharge q) (s.handed p c)))).state.queueFull c = false := by
    rw [← notFull]
    have same := handed_chan s p c
    refine queueFull_congr ?_ ?_ <;> rw [foldl_complete_chan, start_state, foldl_raiseCharge_chan, same]
    rfl
  rw [post_of_accepted good held idle hc opened source short (by simp [notFull]), deliverAll_postRecord good off,
    postFinish_queued (by rw [post_pending]; exact left), displace_of_room notFull', foldl_complete_map (engineApart_joinQueue _ _ _)]
  have state : (Work.start ((s.takersAt c).foldl (fun t q => t.raiseCharge q) (s.handed p c))).map
      (fun t => t.joinQueue c (handleIx (s.operand p 0)) (s.headFlag p)) =
        Work.start ((s.takersAt c).foldl (fun t q => t.raiseCharge q)
          ((s.posted p c (s.chan c).queue).placeAll (s.toldAt c u (s.chan c).queue) (mkRecord .arrival c.val 1))) := by
    rw [← handed_joinQueue left opened fresh, ← foldl_raiseCharge_joinQueue]
    rfl
  have queue : ((Work.start ((s.takersAt c).foldl (fun t q => t.raiseCharge q)
      ((s.posted p c (s.chan c).queue).placeAll (s.toldAt c u (s.chan c).queue) (mkRecord .arrival c.val 1)))).state.chan c).queue.length =
        (s.chan c).queue.length + 1 := by
    rw [start_state, foldl_raiseCharge_chan, placeAll_chan, posted_queue, if_neg left]
    split <;> simp
  simp only [state, foldl_complete_chan, queue]
  rw [finish_completes, foldl_taken _ (takersAt_nodup s c), posts_eq]
  rfl

end

/-- Settles O22: a POST that finds room, or leaves nothing pending. -/
theorem postRequest : Obligations.PostRequest := by
  unfold Obligations.PostRequest
  intro p s c u hg good b q left held idle hc opened source short off fresh
  have operand : channelOperand ((s.served (.re p)).operand p 1) = some c := channelOperand_of_channel hc
  refine ⟨fun nothing => ?_, fun some room => ?_⟩
  · rw [exec_post_granted hg, finish_post_unqueued (s := s.served (.re p)) good held idle operand opened source short off
      (by rw [wouldRemain_of_left (s := s.served (.re p)) nothing, Bool.and_false]) nothing]
    rfl
  · rw [exec_post_granted hg, finish_post_queued (s := s.served (.re p)) good held idle operand opened source short off room some fresh]
    rfl

end Sys2Proof.Machine
end

section
/-! POST with a displacement: O23 (R53, R55). -/

namespace Sys2Proof.Machine

/-! ## Updates of channels and queues pass through the last-use rule -/

/-- An update of the state that changes channels and queues alone, and reads nothing. -/
structure PoolApart (f : State → State) : Prop extends EngineApart f where
  modBuf : ∀ s b g, f (s.modBuf b g) = (f s).modBuf b g
  setFreeList : ∀ s l, f (s.setFreeList l) = (f s).setFreeList l
  setClaimWait : ∀ s l, f (s.setClaimWait l) = (f s).setClaimWait l
  raiseCharge : ∀ s q, f (s.raiseCharge q) = (f s).raiseCharge q
  buf : ∀ s b, (f s).buf b = s.buf b
  freeList : ∀ s, (f s).freeList = s.freeList
  claimWait : ∀ s, (f s).claimWait = s.claimWait
  session : ∀ s q, ((f s).port q).session = (s.port q).session
  belowQuota : ∀ s q, (f s).belowQuota q = s.belowQuota q

theorem poolApart_modChan (c : ChanIx) (g : Chan → Chan) : PoolApart fun s => s.modChan c g where
  toEngineApart := engineApart_modChan c g
  modBuf _ _ _ := rfl
  setFreeList _ _ := rfl
  setClaimWait _ _ := rfl
  raiseCharge _ _ := rfl
  buf _ _ := rfl
  freeList _ := rfl
  claimWait _ := rfl
  session _ _ := rfl
  belowQuota _ _ := rfl

theorem place_belowQuota (s : State) (p q : Port) (r : Record) : (s.place p r).belowQuota q = s.belowQuota q := by
  obtain ⟨n, h⟩ := place_port_frame s p q r
  rw [State.belowQuota, State.belowQuota, h]

theorem poolApart_place (p : Port) (r : Record) : PoolApart fun s => s.place p r where
  toEngineApart := engineApart_place p r
  modBuf s b g := place_modBuf s b g p r
  setFreeList s l := place_setFreeList s l p r
  setClaimWait s l := place_setClaimWait s l p r
  raiseCharge s q := place_raiseCharge s q p r
  buf s b := place_buf s p r b
  freeList s := place_freeList s p r
  claimWait s := place_claimWait s p r
  session s q := place_session s p q r
  belowQuota s q := place_belowQuota s p q r

theorem poolApart_comp {f g : State → State} (hf : PoolApart f) (hg : PoolApart g) : PoolApart fun s => g (f s) where
  toEngineApart := engineApart_comp hf.toEngineApart hg.toEngineApart
  modBuf s b h := by rw [hf.modBuf, hg.modBuf]
  setFreeList s l := by rw [hf.setFreeList, hg.setFreeList]
  setClaimWait s l := by rw [hf.setClaimWait, hg.setClaimWait]
  raiseCharge s q := by rw [hf.raiseCharge, hg.raiseCharge]
  buf s b := by rw [hg.buf, hf.buf]
  freeList s := by rw [hg.freeList, hf.freeList]
  claimWait s := by rw [hg.claimWait, hf.claimWait]
  session s q := by rw [hg.session, hf.session]
  belowQuota s q := by rw [hg.belowQuota, hf.belowQuota]

theorem poolApart_placeAll (l : List Port) (r : Record) : PoolApart fun s => s.placeAll l r := by
  induction l with
  | nil => exact { engineApart_placeAll [] r with
      modBuf _ _ _ := rfl, setFreeList _ _ := rfl, setClaimWait _ _ := rfl, raiseCharge _ _ := rfl, buf _ _ := rfl
      freeList _ := rfl, claimWait _ := rfl, session _ _ := rfl, belowQuota _ _ := rfl }
  | cons p l ih => exact poolApart_comp (poolApart_place p r) ih

section
variable {f : State → State} (hf : PoolApart f)
include hf

theorem handle_map (s : State) (b : BufIx) : (f s).handle b = s.handle b := by
  rw [State.handle, State.handle, hf.buf]

theorem handOut_map (s : State) (p : Port) (b : BufIx) : f (s.handOut p b) = (f s).handOut p b := by
  unfold State.handOut
  rw [hf.raiseCharge, hf.modBuf, hf.session]

theorem claimGiven_map (w : Work) (p : Port) (b : BufIx) (long : Bool) :
    (w.claimGiven p b long).map f = (w.map f).claimGiven p b long := by
  have zero : ((w.map f).state.port p).engine.claimsZero = (w.state.port p).engine.claimsZero := by
    rw [map_state, hf.engine]
  unfold Work.claimGiven
  rw [zero]
  split
  · unfold Work.map
    simp only [handle_map hf, hf.comm]
  · rw [complete_map hf.toEngineApart, map_state, handle_map hf]

theorem serveClaim_map (w : Work) (p : Port) (b : BufIx) : (w.serveClaim p b).map f = (w.map f).serveClaim p b := by
  unfold Work.serveClaim
  rw [claimGiven_map hf]
  unfold Work.map
  simp only [hf.setClaimWait, handOut_map hf, hf.claimWait]

theorem enterFree_map (w : Work) (b : BufIx) : (w.enterFree b).map f = (w.map f).enterFree b := by
  have freed : (w.map fun s => s.modBuf b BufRec.freed).map f = (w.map f).map fun s => s.modBuf b BufRec.freed := by
    unfold Work.map
    simp only [hf.modBuf]
  have server : ((w.map fun s => s.modBuf b BufRec.freed).map f).state.claimWait.find?
      ((w.map fun s => s.modBuf b BufRec.freed).map f).state.belowQuota =
        (w.map fun s => s.modBuf b BufRec.freed).state.claimWait.find? (w.map fun s => s.modBuf b BufRec.freed).state.belowQuota := by
    rw [map_state, hf.claimWait, show (f (w.map fun s => s.modBuf b BufRec.freed).state).belowQuota =
      (w.map fun s => s.modBuf b BufRec.freed).state.belowQuota from funext (hf.belowQuota _)]
  unfold Work.enterFree
  simp only [← freed]
  rw [server]
  split
  · exact serveClaim_map hf _ _ _
  · unfold Work.map
    simp only [hf.setFreeList, hf.freeList]

theorem lastUse_map (w : Work) (b : BufIx) : (w.lastUse b).map f = (w.map f).lastUse b := by
  unfold Work.lastUse
  rw [map_state, hf.buf]
  split
  · exact enterFree_map hf w b
  · rfl

end

/-! ## What the last-use rule leaves alone -/

theorem serveClaim_buf_other {w : Work} {b d : BufIx} (h : d ≠ b) (q : Port) : (w.serveClaim q b).state.buf d = w.state.buf d := by
  have out : ((w.state.handOut q b).setClaimWait (w.state.claimWait.erase q)).buf d = w.state.buf d := by
    unfold State.handOut State.raiseCharge
    rw [buf_setClaimWait, buf_modPort, buf_modBuf_other _ h]
  unfold Work.serveClaim Work.claimGiven
  split
  · exact out
  · exact out

theorem lastUse_buf_other {w : Work} {b d : BufIx} (h : d ≠ b) : (w.lastUse b).state.buf d = w.state.buf d := by
  have freed : (w.map fun s => s.modBuf b BufRec.freed).state.buf d = w.state.buf d := buf_modBuf_other _ h _
  unfold Work.lastUse Work.enterFree
  split
  · simp only
    split
    · exact (serveClaim_buf_other h _).trans freed
    · exact freed
  · rfl

theorem serveClaim_chan (w : Work) (q : Port) (b : BufIx) (c : ChanIx) : (w.serveClaim q b).state.chan c = w.state.chan c := by
  unfold Work.serveClaim Work.claimGiven
  split <;> rfl

theorem lastUse_chan (w : Work) (b : BufIx) (c : ChanIx) : (w.lastUse b).state.chan c = w.state.chan c := by
  unfold Work.lastUse Work.enterFree
  split
  · simp only
    split
    · exact serveClaim_chan ..
    · rfl
  · rfl

/-! ## The head entry leaves a full queue (R53) -/

theorem foldl_raiseCharge_entryLeaves (l : List Port) (s : State) (c : ChanIx) (d : BufIx) :
    (l.foldl (fun t q => t.raiseCharge q) s).entryLeaves c d = l.foldl (fun t q => t.raiseCharge q) (s.entryLeaves c d) := by
  induction l generalizing s with
  | nil => rfl
  | cons q l ih => rw [List.foldl_cons, List.foldl_cons, ih]; rfl

/-- Telling an origin commutes with what leaves the queues, the record and the sessions alone. -/
theorem tellOrigin_map {g : State → State} {s : State} {d : BufIx} (hp : ∀ p r, (g s).place p r = g (s.place p r))
    (buf : (g s).buf d = s.buf d) (attached : ∀ p, (g s).attached p = s.attached p) (k : RecordKind) (c : ChanIx) :
    (g s).tellOrigin k c d = g (s.tellOrigin k c d) := by
  unfold State.tellOrigin State.handle
  rw [buf]
  cases (s.buf d).origin with
  | none => rfl
  | some o =>
    simp only [attached]
    split
    · exact hp _ _
    · rfl

theorem raiseCharge_attached (s : State) (p q : Port) : (s.raiseCharge q).attached p = s.attached p :=
  attached_modPort (f := fun x => { x with charge := x.charge + 1 }) s q p fun _ => rfl

theorem foldl_raiseCharge_tellOrigin (l : List Port) (s : State) (k : RecordKind) (c : ChanIx) (d : BufIx) :
    (l.foldl (fun t q => t.raiseCharge q) s).tellOrigin k c d = l.foldl (fun t q => t.raiseCharge q) (s.tellOrigin k c d) := by
  induction l generalizing s with
  | nil => rfl
  | cons q l ih =>
    rw [List.foldl_cons, List.foldl_cons, ih, tellOrigin_map (g := fun t => t.raiseCharge q) (fun p r => place_raiseCharge s q p r) rfl
      fun p => raiseCharge_attached s p q]

section
variable (s : State) (o p : Port) (r : Record) (c : ChanIx)

theorem place_operand (i : Fin 6) : (s.place o r).operand p i = s.operand p i := by
  obtain ⟨_, h⟩ := place_port_frame s o p r
  rw [State.operand, State.operand, h]

theorem place_headFlag : (s.place o r).headFlag p = s.headFlag p := by
  obtain ⟨_, h⟩ := place_port_frame s o p r
  rw [State.headFlag, State.headFlag, h]

theorem place_attached_iff : (s.place o r).attached p = s.attached p := by
  rw [State.attached, State.attached, sessionState_place]

theorem place_takersAt : (s.place o r).takersAt c = s.takersAt c := by
  unfold State.takersAt
  rw [place_chan, show (s.place o r).belowQuota = s.belowQuota from funext fun q => place_belowQuota s o q r]

theorem place_leftPending : (s.place o r).leftPending c = s.leftPending c := by
  rw [State.leftPending, State.leftPending, place_chan, place_takersAt]

theorem place_handed : (s.handed p c).place o r = (s.place o r).handed p c := by
  unfold State.handed State.handedRecord
  simp only [place_operand, place_takersAt, place_leftPending, place_session]
  rw [place_modPort (f := fun x => x.givesUp (handleIx (s.operand p 0))) ⟨fun _ _ => rfl, fun _ => rfl⟩, place_modChan, place_modBuf]

end

theorem handed_tellOrigin {s : State} {p : Port} {d : BufIx} (other : d ≠ handleIx (s.operand p 0)) (k : RecordKind) (c e : ChanIx) :
    (s.handed p c).tellOrigin k e d = (s.tellOrigin k e d).handed p c :=
  tellOrigin_map (g := fun t => t.handed p c) (fun o r => place_handed s o p r c) (handed_buf_other other)
    (fun q => handed_attached s p q c) k e

theorem entryLeaves_tellOrigin (s : State) (k : RecordKind) (c : ChanIx) (d : BufIx) :
    (s.entryLeaves c d).tellOrigin k c d = (s.tellOrigin k c d).entryLeaves c d := by
  rw [tellOrigin_eq_originTold, tellOrigin_eq_originTold, originTold_entryLeaves]

theorem entryLeaves_buf_other (s : State) (c : ChanIx) {d e : BufIx} (h : e ≠ d) : (s.entryLeaves c d).buf e = s.buf e :=
  (buf_modBuf_other _ h _).trans (buf_modChan ..)

/-- Joining a queue whose head entry has left it. -/
theorem handed_leaves_joinQueue {s : State} {p : Port} {c : ChanIx} {u : ChanSetup} {d : BufIx} {rest : List BufIx}
    (left : s.leftPending c ≠ 0) (opened : (s.chan c).status = .opened u) (queue : (s.chan c).queue = d :: rest)
    (off : handleIx (s.operand p 0) ∉ d :: rest) (distinct : (d :: rest).Nodup) :
    ((s.handed p c).entryLeaves c d).joinQueue c (handleIx (s.operand p 0)) (s.headFlag p) =
      ((s.posted p c rest).placeAll (s.toldAt c u rest) (mkRecord .arrival c.val 1)).modBuf d fun r =>
        { r with pending := 0, channel := none } := by
  obtain ⟨other, off'⟩ := not_or.1 fun h => off (List.mem_cons.2 h)
  obtain ⟨gone, _⟩ := List.nodup_cons.1 distinct
  have chan : ((s.handed p c).entryLeaves c d).chan c =
      { s.chan c with takeWaiters := (s.chan c).takeWaiters &&& ~~~maskOf (s.takersAt c), queue := rest } := by
    unfold State.entryLeaves
    rw [chan_modBuf, chan_modChan_same, handed_chan, queue]
    rfl
  have queued : ((s.handed p c).entryLeaves c d).modChan c (fun x =>
      { x with queue := if s.headFlag p then handleIx (s.operand p 0) :: x.queue else x.queue ++ [handleIx (s.operand p 0)] }) =
        (s.posted p c rest).modBuf d fun r => { r with pending := 0, channel := none } := by
    unfold State.entryLeaves State.handed State.posted
    simp only [modPort_modChan_comm, modPort_modBuf_comm, modChan_modBuf_comm, modChan_modChan, if_neg left]
    refine congrArg (fun t : State => t.modPort p _) (modChan_congr _ c ?_)
    rw [chan_modBuf, chan_modBuf, queue]
    rfl
  have told : ((s.handed p c).entryLeaves c d).arrivalPorts c (handleIx (s.operand p 0)) = s.toldAt c u rest := by
    have waits : ∀ q, (rest.any fun e => maskHas (((s.handed p c).entryLeaves c d).buf e).pending q) =
        rest.any fun e => maskHas (s.buf e).pending q := fun q => by
      refine Bool.eq_iff_iff.2 ?_
      simp only [List.any_eq_true]
      refine exists_congr fun e => and_congr_right fun he => ?_
      rw [entryLeaves_buf_other _ c (fun h : e = d => gone (h ▸ he)),
        handed_buf_other fun h : e = handleIx (s.operand p 0) => off' (h ▸ he)]
    have setup : (((s.handed p c).entryLeaves c d).chan c).setup = some u := by rw [chan]; exact setup_of_opened opened
    have queue' : (((s.handed p c).entryLeaves c d).chan c).queue = rest := by rw [chan]
    unfold State.arrivalPorts State.toldAt
    rw [setup, queue', entryLeaves_buf_other _ c other, handed_buf]
    refine List.filter_congr fun q _ => ?_
    have attached : ((s.handed p c).entryLeaves c d).attached q = s.attached q := handed_attached s p q c
    rw [waits, attached, Option.any_some]
    cases u.notice <;> rfl
  unfold State.joinQueue
  rw [queued, told]
  exact ((poolApart_placeAll _ _).modBuf ..)

/-! ## The displacement within the table operation -/

theorem attached_modEngine (s : State) (q p : Port) (g : Engine → Engine) : (s.modEngine q g).attached p = s.attached p :=
  attached_modPort s q p (notesApart_engine g).session

theorem serveClaim_attached (w : Work) (q p : Port) (b : BufIx) : (w.serveClaim q b).state.attached p = w.state.attached p := by
  have out : ((w.state.handOut q b).setClaimWait (w.state.claimWait.erase q)).attached p = w.state.attached p :=
    raiseCharge_attached _ p q
  unfold Work.serveClaim Work.claimGiven
  split
  · rw [map_state, attached_modEngine]
    exact out
  · exact (attached_modEngine ..).trans out

theorem lastUse_attached (w : Work) (p : Port) (b : BufIx) : (w.lastUse b).state.attached p = w.state.attached p := by
  unfold Work.lastUse Work.enterFree
  split
  · simp only
    split
    · exact serveClaim_attached ..
    · rfl
  · rfl

/-- A buffer off the queue and not joining it may be freed before or after the joining. -/
theorem lastUse_joinQueue {w : Work} {c : ChanIx} {b d : BufIx} (other : b ≠ d) (off : d ∉ (w.state.chan c).queue) (head : Bool) :
    ((w.lastUse d).map fun s => s.joinQueue c b head) = (w.map fun s => s.joinQueue c b head).lastUse d := by
  have waits : ∀ q, ((w.state.chan c).queue.any fun e => maskHas ((w.lastUse d).state.buf e).pending q) =
      (w.state.chan c).queue.any fun e => maskHas (w.state.buf e).pending q := fun q => by
    refine Bool.eq_iff_iff.2 ?_
    simp only [List.any_eq_true]
    exact exists_congr fun e => and_congr_right fun he => by rw [lastUse_buf_other fun h : e = d => off (h ▸ he)]
  have ports : (w.lastUse d).state.arrivalPorts c b = w.state.arrivalPorts c b := by
    unfold State.arrivalPorts
    rw [lastUse_buf_other other, lastUse_chan]
    exact List.filter_congr fun q _ => by rw [waits, lastUse_attached]
  have apart := poolApart_comp (poolApart_modChan c fun x => { x with queue := if head then b :: x.queue else x.queue ++ [b] })
    (poolApart_placeAll (w.state.arrivalPorts c b) (mkRecord .arrival c.val 1))
  refine Eq.trans ?_ (lastUse_map apart w d)
  simp only [Work.map, State.joinQueue, ports]

theorem engineApart_entryLeaves (c : ChanIx) (d : BufIx) : EngineApart fun s => s.entryLeaves c d :=
  engineApart_comp (engineApart_modChan c _) (engineApart_modBuf d _)

/-- Telling an origin places a record, or does nothing. -/
theorem tellOrigin_cases (s : State) (k : RecordKind) (c : ChanIx) (d : BufIx) :
    s.tellOrigin k c d = s ∨ ∃ o r, s.tellOrigin k c d = s.place o r := by
  unfold State.tellOrigin
  split
  · exact .inl rfl
  · split
    · exact .inr ⟨_, _, rfl⟩
    · exact .inl rfl

theorem engineApart_tellOrigin (k : RecordKind) (c : ChanIx) (d : BufIx) : EngineApart fun s => s.tellOrigin k c d where
  comm s q g := tellOrigin_map (g := fun t => t.modEngine q g) (fun p r => place_modPort (notesApart_engine g) s q p r) rfl
    (fun p => attached_modPort s q p (notesApart_engine g).session) k c
  engine s q := by
    rcases tellOrigin_cases s k c d with h | ⟨o, r, h⟩
    · rw [h]
    · rw [h, (engineApart_place o r).engine]
  config s q := by
    rcases tellOrigin_cases s k c d with h | ⟨o, r, h⟩
    · rw [h]
    · rw [h, (engineApart_place o r).config]

section
variable {w : Work} {c : ChanIx} {u : ChanSetup} {d : BufIx} {rest : List BufIx} (setup : (w.state.chan c).setup = some u)
  (policy : u.policy = .displaceOldest) (full : w.state.queueFull c = true) (queue : (w.state.chan c).queue = d :: rest)
include setup policy full queue

theorem displace_of_full : w.displace c =
    if !(w.state.buf d).readers.isEmpty then w.map fun s => s.entryLeaves c d
    else ((w.map fun s => s.entryLeaves c d).map fun s => s.tellOrigin .displaced c d).lastUse d := by
  have dropped : (w.map fun s => s.dropEntry c d) = w.map fun s => s.entryLeaves c d := by
    simp only [Work.map, dropEntry_of_head queue]
  unfold Work.displace
  rw [setup, full, queue]
  simp only [Option.any_some, policy, dropped, map_state, entryLeaves_buf]
  rfl

theorem displace_kept (readers : (w.state.buf d).readers ≠ []) : w.displace c = w.map fun s => s.entryLeaves c d := by
  rw [displace_of_full setup policy full queue, if_pos (by simpa using readers)]

theorem displace_told (readers : (w.state.buf d).readers = []) :
    w.displace c = ((w.map fun s => s.entryLeaves c d).map fun s => s.tellOrigin .displaced c d).lastUse d := by
  rw [displace_of_full setup policy full queue, if_neg (by simp [readers])]

end

/-! ## The whole operation -/

theorem foldl_modPort_modBuf (f : Port → PortState → PortState) (l : List Port) (s : State) (b : BufIx) (g : BufRec → BufRec) :
    l.foldl (fun t q => t.modPort q (f q)) (s.modBuf b g) = (l.foldl (fun t q => t.modPort q (f q)) s).modBuf b g := by
  induction l generalizing s with
  | nil => rfl
  | cons q l ih => rw [List.foldl_cons, List.foldl_cons, ← ih]; rfl

theorem foldl_modPort_buf (f : Port → PortState → PortState) (l : List Port) (s : State) (b : BufIx) :
    (l.foldl (fun t q => t.modPort q (f q)) s).buf b = s.buf b := by
  induction l generalizing s with
  | nil => rfl
  | cons q l ih => rw [List.foldl_cons, ih]; rfl

theorem posts_buf_other {s : State} {p : Port} {c : ChanIx} {u : ChanSetup} {rest : List BufIx} {d : BufIx}
    (h : d ≠ handleIx (s.operand p 0)) : (s.posts p c u rest).buf d = s.buf d := by
  rw [posts_eq, foldl_modPort_buf, (poolApart_placeAll _ _).buf, State.posted, buf_modPort, buf_modChan, buf_modBuf_other _ h]

/-- What telling an origin leaves alone, of what a POST reads. -/
theorem tellOrigin_keeps (s : State) (k : RecordKind) (c : ChanIx) (d : BufIx) (p : Port) :
    (∀ i, (s.tellOrigin k c d).operand p i = s.operand p i) ∧ (s.tellOrigin k c d).headFlag p = s.headFlag p ∧
      (s.tellOrigin k c d).takersAt c = s.takersAt c ∧ (s.tellOrigin k c d).leftPending c = s.leftPending c ∧
      (s.tellOrigin k c d).chan c = s.chan c := by
  rcases tellOrigin_cases s k c d with h | ⟨o, r, h⟩
  · rw [h]
    exact ⟨fun _ => rfl, rfl, rfl, rfl, rfl⟩
  · rw [h]
    exact ⟨place_operand s o p r, place_headFlag s o p r, place_takersAt s o r c, place_leftPending s o r c, place_chan s o r c⟩

/-- The entry has left, and the new one has joined: what is owed then is the takers' completions. -/
theorem foldl_complete_displaced {t : State} {p : Port} {c : ChanIx} {u : ChanSetup} {d : BufIx} {rest : List BufIx}
    (left : t.leftPending c ≠ 0) (opened : (t.chan c).status = .opened u) (queue : (t.chan c).queue = d :: rest)
    (off : handleIx (t.operand p 0) ∉ d :: rest) (distinct : (d :: rest).Nodup) (l : List Port) (r : Vector Word 4) :
    (l.foldl (fun w q => w.complete q .ok r true)
      (Work.start (l.foldl (fun s q => s.raiseCharge q) ((t.handed p c).entryLeaves c d)))).map
        (fun s => s.joinQueue c (handleIx (t.operand p 0)) (t.headFlag p)) =
      l.foldl (fun w q => w.complete q .ok r true)
        (Work.start (l.foldl (fun s q => s.raiseCharge q)
          (((t.posted p c rest).placeAll (t.toldAt c u rest) (mkRecord .arrival c.val 1)).modBuf d fun r =>
            { r with pending := 0, channel := none }))) := by
  rw [foldl_complete_map (engineApart_joinQueue _ _ _), ← handed_leaves_joinQueue left opened queue off distinct,
    ← foldl_raiseCharge_joinQueue]
  rfl

/-- The takers' end in a POST that displaced an entry. -/
theorem finish_displaced (t : State) (p : Port) (c : ChanIx) (u : ChanSetup) (d : BufIx) (rest : List BufIx) :
    ((t.takersAt c).foldl (fun w q => w.complete q .ok
      (res4 (t.operand p 0) (t.operand p 2) (t.operand p 3) (BitVec.ofNat 16 p.val)) true)
      (Work.start ((t.takersAt c).foldl (fun s q => s.raiseCharge q)
        (((t.posted p c rest).placeAll (t.toldAt c u rest) (mkRecord .arrival c.val 1)).modBuf d fun r =>
          { r with pending := 0, channel := none })))).finish =
      (t.posts p c u rest).modBuf d fun r => { r with pending := 0, channel := none } := by
  rw [foldl_taken _ (takersAt_nodup t c), foldl_modPort_modBuf, posts_eq]

/-- The queue's length after a POST that displaced an entry. -/
theorem queue_displaced {t : State} {p : Port} {c : ChanIx} {u : ChanSetup} {d : BufIx} {rest : List BufIx} (left : t.leftPending c ≠ 0)
    (l : List Port) (r : Vector Word 4) :
    ((l.foldl (fun w q => w.complete q .ok r true) (Work.start (l.foldl (fun s q => s.raiseCharge q)
      (((t.posted p c rest).placeAll (t.toldAt c u rest) (mkRecord .arrival c.val 1)).modBuf d fun r =>
        { r with pending := 0, channel := none })))).state.chan c).queue.length = rest.length + 1 := by
  rw [foldl_complete_chan, start_state, foldl_raiseCharge_chan, chan_modBuf, placeAll_chan, posted_queue, if_neg left]
  split <;> simp

section
variable {s : State} {p : Port} {c : ChanIx} {u : ChanSetup} {d : BufIx} {rest : List BufIx}
  (good : s.checkHandle (s.operand p 0) = none)
  (held : (s.buf (handleIx (s.operand p 0))).heldBy p = true) (idle : (s.buf (handleIx (s.operand p 0))).bulkCount = 0)
  (hc : channelOperand (s.operand p 1) = some c) (opened : (s.chan c).status = .opened u)
  (source : maskHas u.sources p = true) (short : (s.operand p 2).toNat ≤ 512) (policy : u.policy = .displaceOldest)
  (off : maskHas (s.chan c).takeWaiters p = false) (fresh : handleIx (s.operand p 0) ∉ d :: rest) (distinct : (d :: rest).Nodup)
  (queue : (s.chan c).queue = d :: rest) (full : (s.chan c).queue.length = u.capacity) (left : s.leftPending c ≠ 0)

include good held idle hc opened source short policy off left in
/-- The whole operation, by what the displacement comes to. -/
theorem finish_post_displacing {w' : Work}
    (displaced : ((s.takersAt c).foldl (fun w q => w.complete q .ok
      (res4 (s.operand p 0) (s.operand p 2) (s.operand p 3) (BitVec.ofNat 16 p.val)) true)
      (Work.start ((s.takersAt c).foldl (fun t q => t.raiseCharge q) (s.handed p c)))).displace c = w') :
    ((Work.start s).post p).finish =
      (w'.map fun t => t.joinQueue c (handleIx (s.operand p 0)) (s.headFlag p)).finish.modPort p fun x =>
        x.completes .ok (res4 (BitVec.ofNat 16
          ((w'.map fun t => t.joinQueue c (handleIx (s.operand p 0)) (s.headFlag p)).state.chan c).queue.length) 0 0 0) false := by
  have room : (u.policy = .refuse && s.queueFull c && s.wouldRemain c) = false := by simp [policy]
  rw [post_of_accepted good held idle hc opened source short room, deliverAll_postRecord good off,
    postFinish_queued (by rw [post_pending]; exact left), displaced]
  exact finish_completes ..

include opened fresh queue full in
/-- The displacement's conditions hold once the takers have the buffer. -/
theorem displaces_delivered (l : List Port) (r : Vector Word 4) :
    ((l.foldl (fun w q => w.complete q .ok r true) (Work.start (l.foldl (fun t q => t.raiseCharge q) (s.handed p c)))).state.chan
      c).setup = some u ∧
    (l.foldl (fun w q => w.complete q .ok r true) (Work.start (l.foldl (fun t q => t.raiseCharge q) (s.handed p c)))).state.queueFull
      c = true ∧
    ((l.foldl (fun w q => w.complete q .ok r true) (Work.start (l.foldl (fun t q => t.raiseCharge q) (s.handed p c)))).state.chan
      c).queue = d :: rest ∧
    (l.foldl (fun w q => w.complete q .ok r true) (Work.start (l.foldl (fun t q => t.raiseCharge q) (s.handed p c)))).state.buf d =
      s.buf d := by
  have other : d ≠ handleIx (s.operand p 0) := fun e => fresh (e ▸ List.mem_cons_self ..)
  have chan : (l.foldl (fun w q => w.complete q .ok r true)
      (Work.start (l.foldl (fun t q => t.raiseCharge q) (s.handed p c)))).state.chan c =
        { s.chan c with takeWaiters := (s.chan c).takeWaiters &&& ~~~maskOf (s.takersAt c) } := by
    rw [foldl_complete_chan, start_state, foldl_raiseCharge_chan, handed_chan]
  refine ⟨?_, ?_, ?_, ?_⟩
  · rw [chan]
    exact setup_of_opened opened
  · refine (queueFull_congr (s := s) ?_ ?_).trans ((queueFull_iff opened).2 full.ge)
    · rw [chan]
      rfl
    · rw [chan]
  · rw [chan]
    exact queue
  · rw [foldl_complete_buf, start_state, foldl_raiseCharge_buf, handed_buf_other other]

include good held idle hc opened source short policy off fresh distinct queue full left

/-- A POST that displaces an entry whose buffer has readers. -/
theorem finish_post_kept (readers : (s.buf d).readers ≠ []) :
    ((Work.start s).post p).finish =
      (((s.posts p c u rest).modBuf d fun r => { r with pending := 0, channel := none }).lastUsed d).modPort p fun x =>
        x.completes .ok (res4 (BitVec.ofNat 16 u.capacity) 0 0 0) false := by
  obtain ⟨setup, full', queue', buf⟩ := displaces_delivered opened fresh queue full (s.takersAt c)
    (res4 (s.operand p 0) (s.operand p 2) (s.operand p 3) (BitVec.ofNat 16 p.val))
  have leaves : (Work.start ((s.takersAt c).foldl (fun t q => t.raiseCharge q) (s.handed p c))).map (fun t => t.entryLeaves c d) =
      Work.start ((s.takersAt c).foldl (fun t q => t.raiseCharge q) ((s.handed p c).entryLeaves c d)) := by
    rw [← foldl_raiseCharge_entryLeaves]
    rfl
  have length : rest.length + 1 = u.capacity := by rw [← full, queue, List.length_cons]
  have stays : ((s.posts p c u rest).modBuf d fun r => { r with pending := 0, channel := none }).lastUsed d =
      (s.posts p c u rest).modBuf d fun r => { r with pending := 0, channel := none } :=
    lastUsed_of_used (.inl (by rw [buf_modBuf_same, posts_buf_other fun e => fresh (e ▸ List.mem_cons_self ..)]; exact readers))
  rw [finish_post_displacing good held idle hc opened source short policy off left
    (displace_kept setup policy full' queue' (by rw [buf]; exact readers)), foldl_complete_map (engineApart_entryLeaves c d), leaves,
    foldl_complete_displaced left opened queue fresh distinct, queue_displaced left, finish_displaced, length, stays]

/-- A POST that displaces an entry whose buffer has no reader. -/
theorem finish_post_told (readers : (s.buf d).readers = []) :
    ((Work.start s).post p).finish =
      ((((s.originTold .displaced c d).posts p c u rest).modBuf d fun r => { r with pending := 0, channel := none }).lastUsed d).modPort
        p fun x => x.completes .ok (res4 (BitVec.ofNat 16 u.capacity) 0 0 0) false := by
  obtain ⟨setup, full', queue', buf⟩ := displaces_delivered opened fresh queue full (s.takersAt c)
    (res4 (s.operand p 0) (s.operand p 2) (s.operand p 3) (BitVec.ofNat 16 p.val))
  have other : d ≠ handleIx (s.operand p 0) := fun e => fresh (e ▸ List.mem_cons_self ..)
  have displaced := displace_told setup policy full' queue' (by rw [buf]; exact readers)
  rw [foldl_complete_map (engineApart_entryLeaves c d), foldl_complete_map (engineApart_tellOrigin _ c d)] at displaced
  rw [← tellOrigin_eq_originTold]
  obtain ⟨operand, headFlag, takers, leftPending, chan⟩ := tellOrigin_keeps s .displaced c d p
  have told : ((Work.start ((s.takersAt c).foldl (fun t q => t.raiseCharge q) (s.handed p c))).map (fun t => t.entryLeaves c d)).map
      (fun t => t.tellOrigin .displaced c d) =
        Work.start ((s.takersAt c).foldl (fun t q => t.raiseCharge q) (((s.tellOrigin .displaced c d).handed p c).entryLeaves c d)) := by
    rw [← handed_tellOrigin other, ← entryLeaves_tellOrigin, ← foldl_raiseCharge_tellOrigin, ← foldl_raiseCharge_entryLeaves]
    rfl
  rw [told] at displaced
  have length : rest.length + 1 = u.capacity := by rw [← full, queue, List.length_cons]
  rw [finish_post_displacing good held idle hc opened source short policy off left displaced]
  generalize s.tellOrigin .displaced c d = t at *
  simp only [← operand, ← headFlag, ← takers] at *
  have opened' : (t.chan c).status = .opened u := by rw [chan]; exact opened
  have queueT : (t.chan c).queue = d :: rest := by rw [chan]; exact queue
  have left' : t.leftPending c ≠ 0 := by rw [leftPending]; exact left
  have gone : d ∉ ((((t.takersAt c).foldl (fun w q => w.complete q .ok
      (res4 (t.operand p 0) (t.operand p 2) (t.operand p 3) (BitVec.ofNat 16 p.val)) true)
      (Work.start ((t.takersAt c).foldl (fun s q => s.raiseCharge q) ((t.handed p c).entryLeaves c d)))).state.chan c).queue) := by
    rw [foldl_complete_chan, start_state, foldl_raiseCharge_chan, State.entryLeaves, chan_modBuf, chan_modChan_same, handed_chan, queueT]
    exact (List.nodup_cons.1 distinct).1
  rw [lastUse_joinQueue (Ne.symm other) gone, foldl_complete_displaced left' opened' queueT fresh distinct, finish_lastUse, lastUse_chan,
    queue_displaced left', finish_displaced, length]

end

/-- Settles O23: a POST to a full queue displaces its head entry. -/
theorem postDisplacesOldest : Obligations.PostDisplacesOldest := by
  unfold Obligations.PostDisplacesOldest
  intro p s c u d rest hg good b held idle hc opened source short policy off fresh distinct queue full left told
  have operand : channelOperand ((s.served (.re p)).operand p 1) = some c := channelOperand_of_channel hc
  rw [exec_post_granted hg]
  refine congrArg done ?_
  by_cases readers : (s.buf d).readers = []
  · rw [show told = (s.served (.re p)).originTold .displaced c d from if_pos readers]
    exact finish_post_told (s := s.served (.re p)) good held idle operand opened source short policy off fresh distinct queue full left
      readers
  · rw [show told = s.served (.re p) from if_neg readers]
    exact finish_post_kept (s := s.served (.re p)) good held idle operand opened source short policy off fresh distinct queue full left
      readers

end Sys2Proof.Machine
end

section
/-! Expiry operations: an entry discarded, a role warned, a role reclaimed (R77 to R82). -/

namespace Sys2Proof.Machine

/-! ## The operation taken -/

theorem exec_expiry_granted {s : State} (h : s.grants .lm .expiry = true) :
    exec .expiryOperation s = .next ((Work.expiry (Work.start (s.served .lm))).finish).settle := congrArg done (tableOp_granted h _)

section
variable {s : State} {x : Position} (offer : s.lmOffer = some x)
include offer

theorem expiry_of_nothing (h : (expiryLookup s.expiry x).bind ((s.takeEntry x).expiredRole x) = none) :
    (Work.start s).expiry = Work.start (s.takeEntry x) := by
  unfold Work.expiry
  simp only [start_state, offer, map_state, h]
  rfl

variable {r : Role} (found : (expiryLookup s.expiry x).bind ((s.takeEntry x).expiredRole x) = some r)
include found

theorem expiry_of_normal (normal : (r.lease.any fun l => l.stage == .normal) = true) (grace : (s.port r.port).session.grace ≠ 0) :
    (Work.start s).expiry = Work.start ((s.takeEntry x).warnRole x r.port) := by
  unfold Work.expiry
  simp only [start_state, offer, map_state, found]
  have warns : ((r.lease.any fun l => l.stage == .normal) && decide (((s.takeEntry x).port r.port).session.grace ≠ 0)) = true := by
    have grace' : ((s.takeEntry x).port r.port).session.grace ≠ 0 := grace
    rw [normal, Bool.true_and]
    exact decide_eq_true grace'
  exact (if_pos warns).trans rfl

theorem expiry_of_expired (h : (r.lease.any fun l => l.stage == .normal) = false ∨ (s.port r.port).session.grace = 0) :
    (Work.start s).expiry = (Work.start (s.takeEntry x)).reclaimExpired x r.port := by
  have stays : ¬(((r.lease.any fun l => l.stage == .normal) && decide (((s.takeEntry x).port r.port).session.grace ≠ 0)) = true) := by
    rcases h with h | h
    · simp [h]
    · have grace : ((s.takeEntry x).port r.port).session.grace = 0 := h
      simp [grace]
  unfold Work.expiry
  simp only [start_state, offer, map_state, found]
  exact if_neg stays

end

/-! ## The four checks (R77) -/

theorem expiredRole_of_checks {s : State} {x : Position} {e : ExpiryEntry} {r : Role}
    (generation : (s.buf x.buffer).generation = e.generation) (role : s.roleAt x = some r)
    (holder : x.role = .holder → e.holder = some r.port) (out : (r.lease.any fun l => l.remaining == 0) = true)
    (attached : s.sessionState r.port ≠ .resetting) : s.expiredRole x e = some r := by
  have same : (decide (x.role = .holder) && decide (e.holder ≠ some r.port)) = false := by
    by_cases h : x.role = .holder
    · simp [holder h]
    · simp [h]
  unfold State.expiredRole
  rw [if_neg (not_not.2 generation), role]
  simp only [same, out]
  rw [if_neg Bool.false_ne_true, if_neg (by decide), if_neg attached]

theorem expiredRole_of_failed {s : State} {x : Position} {e : ExpiryEntry}
    (failed : (s.buf x.buffer).generation ≠ e.generation ∨ s.roleAt x = none ∨
      (∃ r, s.roleAt x = some r ∧
        ((x.role = .holder ∧ e.holder ≠ some r.port) ∨ (∀ l, r.lease = some l → l.remaining ≠ 0) ∨
          s.sessionState r.port = .resetting))) : s.expiredRole x e = none := by
  unfold State.expiredRole
  rcases failed with h | h | ⟨r, role, h | h | h⟩
  · rw [if_pos h]
  · rw [h]
    split <;> rfl
  · rw [role]
    simp [h.1, h.2]
  · have running : (r.lease.any fun l => l.remaining == 0) = false := by
      cases hl : r.lease with
      | none => rfl
      | some l => simpa using h l hl
    rw [role]
    simp only [running]
    simp
  · rw [role]
    simp [h]

/-! ## A role is reclaimed (R79 to R82) -/

/-- A port that loses a role and is told so. -/
def PortState.losesTold (y : PortState) (record : Record) (b : BufIx) (uses : Bulk → Bool) : PortState :=
  ({ y with notes := y.notes.hand record } : PortState).loses b (y.engine.bulk.any uses)

/-- The losing port's side of a reclaim: its charge, its windows, and the abort mark of an operation that uses the role. -/
theorem reclaim_port (s : State) (p : Port) (b : BufIx) (record : Record) (uses : Bulk → Bool) (attached : s.attached p = true)
    (f : BufRec → BufRec) :
    (if ((((s.place p record).modBuf b f).lowerCharge p).staleWindows p b |>.port p).engine.bulk.any uses then
      ((((s.place p record).modBuf b f).lowerCharge p).staleWindows p b).markAbort p
    else (((s.place p record).modBuf b f).lowerCharge p).staleWindows p b) =
      (s.modBuf b f).modPort p fun y => y.losesTold record b uses := by
  rw [place_attached (not_detached_of_attached attached)]
  unfold State.lowerCharge State.staleWindows State.markAbort
  simp only [modEngine_eq_modPort, modPort_modBuf_comm, modPort_modPort, port_modPort_same, port_modBuf]
  by_cases h : ((s.port p).engine.bulk.any uses) = true
  · rw [if_pos h]
    exact modPort_congr _ _ (by simp [PortState.losesTold, PortState.loses, h])
  · rw [if_neg h]
    exact modPort_congr _ _ (by simp [PortState.losesTold, PortState.loses, h])

theorem finish_reclaimHolding (s : State) (p : Port) (b : BufIx) (record : Record) (attached : s.attached p = true) :
    ((Work.start (s.place p record)).reclaimHolding p b).finish =
      ((s.modBuf b fun r => { r with holder := none }).modPort p fun y => y.losesTold record b fun m => m.uses b).lastUsed b := by
  unfold Work.reclaimHolding
  rw [finish_lastUse, finish_of_owed_nil rfl]
  exact congrArg (fun t : State => t.lastUsed b) (reclaim_port s p b record _ attached _)

theorem finish_reclaimReader (s : State) (p : Port) (b : BufIx) (record : Record) (attached : s.attached p = true) :
    ((Work.start (s.place p record)).reclaimReader p b).finish =
      ((s.modBuf b fun r => { r with readers := r.readers.filter fun e => e.port != p }).modPort p fun y =>
        y.losesTold record b fun m => m.readsFrom b).lastUsed b := by
  unfold Work.reclaimReader
  rw [finish_lastUse, finish_of_owed_nil rfl]
  exact congrArg (fun t : State => t.lastUsed b) (reclaim_port s p b record _ attached _)

/-! ## The service of the port that lost the role -/

theorem entersFree_nodup {s : State} {b : BufIx} (h : s.claimWait.Nodup) : (s.entersFree b).claimWait.Nodup := by
  unfold State.entersFree
  simp only
  split
  · exact h.erase _
  · exact h

theorem lastUsed_nodup {s : State} {b : BufIx} (h : s.claimWait.Nodup) : (s.lastUsed b).claimWait.Nodup := by
  unfold State.lastUsed
  split
  · exact entersFree_nodup h
  · exact h

/-- A role that is reclaimed by expiry, by the state that its reclaim leaves. -/
theorem finish_reclaimExpired {s : State} {x : Position} {p : Port} {t : State} (distinct : t.claimWait.Nodup)
    (reclaim : ((Work.start (s.place p (s.roleRecord .reclaimed x))).reclaimAt x p).finish = t) :
    ((Work.start s).reclaimExpired x p).finish = t.waitServed p := by
  have distinct' : ((Work.start (s.place p (s.roleRecord .reclaimed x))).reclaimAt x p).state.claimWait.Nodup := by
    rw [← finish_claimWait, reclaim]
    exact distinct
  exact (finish_serveWaiter _ p distinct').trans (congrArg (fun u : State => u.waitServed p) reclaim)

/-! ## A role is warned (R78) -/

theorem roleAt_port {s : State} {x : Position} {r : Role} (h : s.roleAt x = some r) {p : Port} (hx : x.role = .reader p) :
    r.port = p := by
  unfold State.roleAt at h
  rw [hx] at h
  exact beq_iff_eq.1 (List.find?_some (p := fun e : Role => e.port == p) h)

/-- The lease of the role at a position replaced. -/
theorem modRole_lease {s : State} {x : Position} {r : Role} (h : s.roleAt x = some r) (l : Option Lease) :
    s.modRole x (fun e => { e with lease := l }) = s.modBuf x.buffer fun y =>
      if x.role = .holder then { y with holder := some { r with lease := l } }
      else { y with readers := y.readers.map fun e => if e.port = r.port then { r with lease := l } else e } := by
  unfold State.modRole
  cases hx : x.role with
  | holder =>
    have holder : (s.buf x.buffer).holder = some r := by
      unfold State.roleAt at h
      rw [hx] at h
      exact h
    exact modBuf_congr _ _ (by simp [holder])
  | reader p =>
    have port := roleAt_port h hx
    refine modBuf_congr _ _ ?_
    have same : ∀ e : Role, (if e.port = p then { e with lease := l } else e) = if e.port = r.port then { r with lease := l } else e := by
      intro e
      rw [port]
      by_cases he : e.port = p
      · rw [if_pos he, if_pos he, he, ← port]
      · rw [if_neg he, if_neg he]
    simp only [same, if_neg (show LeaseRole.reader p ≠ .holder from nofun)]

theorem roleRecord_eq (s : State) (k : RecordKind) (x : Position) : s.roleRecord k x =
    { kind := k, subject := handleOf (s.buf x.buffer).generation x.buffer, value := if x.role = .holder then 0 else 1 } := by
  unfold State.roleRecord
  cases x.role <;> rfl

theorem not_resetting_of_attached {s : State} {p : Port} (h : s.attached p = true) : s.sessionState p ≠ .resetting := by
  intro off
  rw [State.attached, off] at h
  exact absurd h (by decide)

/-- What a warning leaves: the role's record, and the one record handed. -/
theorem warnRole_eq {s : State} {x : Position} {r : Role} (role : s.roleAt x = some r) (attached : s.attached r.port = true) :
    s.warnRole x r.port =
      (s.modBuf x.buffer fun y =>
        if x.role = .holder then
          { y with holder := some { r with lease := some { remaining := (s.port r.port).session.grace, stage := .warned } } }
        else
          { y with
            readers := y.readers.map fun e =>
              if e.port = r.port then { r with lease := some { remaining := (s.port r.port).session.grace, stage := .warned } }
              else e }).modPort r.port fun y => { y with notes := y.notes.hand (s.roleRecord .leaseWarn x) } := by
  unfold State.warnRole
  rw [modRole_lease role, place_attached]
  exact not_detached_of_attached attached

theorem reclaimAt_holder {w : Work} {x : Position} {p : Port} (h : x.role = .holder) : w.reclaimAt x p = w.reclaimHolding p x.buffer := by
  unfold Work.reclaimAt
  rw [h]

theorem reclaimAt_reader {w : Work} {x : Position} {p q : Port} (h : x.role = .reader q) :
    w.reclaimAt x p = w.reclaimReader p x.buffer := by
  unfold Work.reclaimAt
  rw [h]

/-- A granted expiry operation that reclaims, by the state that the reclaim leaves. -/
theorem exec_expiry_reclaims {s : State} {x : Position} {e : ExpiryEntry} {r : Role} {l : Lease} (hg : s.grants .lm .expiry = true)
    (offer : s.lmOffer = some x) (entry : expiryLookup s.expiry x = some e) (generation : (s.buf x.buffer).generation = e.generation)
    (role : s.roleAt x = some r) (holder : x.role = .holder → e.holder = some r.port) (lease : r.lease = some l) (out : l.remaining = 0)
    (attached : s.attached r.port = true) (stage : l.stage = .warned ∨ (s.port r.port).session.grace = 0) {t : State}
    (reclaim : ((Work.start (((s.served .lm).takeEntry x).place r.port (((s.served .lm).takeEntry x).roleRecord .reclaimed x))).reclaimAt
      x r.port).finish = t) (distinct : t.claimWait.Nodup) :
    exec .expiryOperation s = .next (t.waitServed r.port).settle := by
  have found : (expiryLookup (s.served .lm).expiry x).bind (((s.served .lm).takeEntry x).expiredRole x) = some r :=
    (congrArg (fun o => Option.bind o _) entry).trans (expiredRole_of_checks (s := (s.served .lm).takeEntry x) generation role holder
      (by rw [lease]; exact beq_iff_eq.2 out) (not_resetting_of_attached attached))
  have expired : (r.lease.any fun l => l.stage == .normal) = false ∨ (s.port r.port).session.grace = 0 :=
    stage.imp_left fun h => by rw [lease, Option.any_some, h]; rfl
  rw [exec_expiry_granted hg, expiry_of_expired (s := s.served .lm) offer found expired, finish_reclaimExpired distinct reclaim]

/-- Settles O27: what an expiry operation comes to by its four checks, the role's stage and the grace, and the role reclaimed. -/
theorem leaseExpiry : Obligations.LeaseExpiry := by
  unfold Obligations.LeaseExpiry
  refine ⟨fun s x e hg offer entry => ⟨fun failed => ?_, fun r generation role holder lease attached grace => ?_⟩,
    fun s x e r l hg offer entry generation role holder lease out attached stage distinct => ⟨fun hx => ?_, fun hx => ?_⟩⟩
  · have none : (expiryLookup (s.served .lm).expiry x).bind (((s.served .lm).takeEntry x).expiredRole x) = none :=
      (congrArg (fun o => Option.bind o _) entry).trans (expiredRole_of_failed (s := (s.served .lm).takeEntry x) failed)
    rw [exec_expiry_granted hg, expiry_of_nothing (s := s.served .lm) offer none]
    rfl
  · have on : s.sessionState r.port ≠ .resetting := not_resetting_of_attached attached
    have found : (expiryLookup (s.served .lm).expiry x).bind (((s.served .lm).takeEntry x).expiredRole x) = some r :=
      (congrArg (fun o => Option.bind o _) entry).trans (expiredRole_of_checks (s := (s.served .lm).takeEntry x) generation role holder
        (by rw [lease]; rfl) on)
    have warned := warnRole_eq (s := (s.served .lm).takeEntry x) role attached
    refine ⟨_, by rw [exec_expiry_granted hg, expiry_of_normal (s := s.served .lm) offer found (by rw [lease]; rfl) grace], ?_⟩
    rw [finish_start, warned]
    refine ⟨?_, fun d hd => ?_, ?_, fun q hq => ?_, fun q => ?_, ?_, ?_, ?_, ?_⟩
    · rw [settle_buf, buf_modPort, buf_modBuf_same]
      rfl
    · rw [settle_buf, buf_modPort, buf_modBuf_other _ hd]
      rfl
    · rw [settle_port_notes, port_modPort_same, roleRecord_eq]
      rfl
    · rw [settle_port_notes, port_modPort_other _ hq]
      rfl
    · rw [settle_port_charge, settle_port_windowA, settle_port_windowB, port_modPort]
      split
      · rename_i hq
        rw [hq]
        exact ⟨rfl, rfl, rfl⟩
      · exact ⟨rfl, rfl, rfl⟩
    · rw [settle_expiry]
      rfl
    · rw [settle_channels]
      rfl
    · rw [settle_freeList]
      rfl
    · rw [settle_claimWait]
      rfl
  · have reclaim := finish_reclaimHolding ((s.served .lm).takeEntry x) r.port x.buffer
      (((s.served .lm).takeEntry x).roleRecord .reclaimed x) attached
    rw [← reclaimAt_holder hx] at reclaim
    rw [exec_expiry_reclaims hg offer entry generation role holder lease out attached stage reclaim (lastUsed_nodup distinct),
      roleRecord_eq]
    rfl
  · have reclaim := finish_reclaimReader ((s.served .lm).takeEntry x) r.port x.buffer
      (((s.served .lm).takeEntry x).roleRecord .reclaimed x) attached
    rw [← reclaimAt_reader hx] at reclaim
    rw [exec_expiry_reclaims hg offer entry generation role holder lease out attached stage reclaim (lastUsed_nodup distinct),
      roleRecord_eq]
    rfl

end Sys2Proof.Machine
end

section
/-! The ticks of the Time Base: O28, O29 and O30 (R67, R76, R127 to R130, R159). -/

namespace Sys2Proof.Machine

/-! ## The µs tick at the rows (R130) -/

theorem ageRows_eq (s : State) : s.ageRows = s.rowsTick := by
  have rows : (s.rows.map fun r : RowState => { r with age := r.age + 1 }).map
      (fun r => if decide (Config.retentionTicks < r.age) = true then { r with epoch := r.epoch + 1 } else r) =
        s.rows.map fun r => { age := r.age + 1, epoch := if r.age < Config.retentionTicks then r.epoch else r.epoch + 1 } := by
    refine vector_ext_get fun i => ?_
    rw [vector_get_map, vector_get_map, vector_get_map]
    by_cases h : (s.rows.get i).age < Config.retentionTicks
    · rw [if_neg (by simpa using Nat.succ_le_of_lt h), if_pos h]
    · rw [if_pos (by simpa using Nat.lt_succ_of_le (Nat.not_lt.1 h)), if_neg h]
  have cells : (s.array.filter fun e =>
      !decide (Config.retentionTicks < ((s.rows.map fun r : RowState => { r with age := r.age + 1 }).get (rowOfKey e.1)).age)) =
        s.array.filter fun e => (s.rows.get (Fin.ofNat 512 (e.1 / 256))).age < Config.retentionTicks := by
    refine List.filter_congr fun e _ => ?_
    rw [vector_get_map, Bool.eq_iff_iff]
    simp [rowOfKey]
  unfold State.ageRows State.rowsTick State.loseRows
  simp only [rows, cells]

theorem rowsTick_get (s : State) (r : Fin 512) : s.rowsTick.rows.get r =
    if (s.rows.get r).age < Config.retentionTicks then { s.rows.get r with age := (s.rows.get r).age + 1 }
    else { age := (s.rows.get r).age + 1, epoch := (s.rows.get r).epoch + 1 } := by
  refine (vector_get_map ..).trans ?_
  split <;> rfl

theorem microsecond_rows_eq (s : State) : s.microsecond.rows = s.rowsTick.rows := by
  rw [microsecond_rows, ageRows_eq]
  rfl

theorem microsecond_array_eq (s : State) : s.microsecond.array = s.rowsTick.array := by
  rw [microsecond_array, ageRows_eq]
  rfl

/-- A row past its retention time reads as the free value of its next epoch. -/
theorem microsecond_bufByte_lost {s : State} {b : BufIx} {o : Nat} (lost : Config.retentionTicks ≤ (s.rows.get (arrayRow b o)).age) :
    s.microsecond.bufByte b o =
      { byte := Config.undefinedByte ((s.rows.get (arrayRow b o)).epoch + 1) (cellKey b o)
        parity := Config.undefinedParity ((s.rows.get (arrayRow b o)).epoch + 1) (cellKey b o) } := by
  have cell : arrayLookup s.microsecond.array (cellKey b o) = none := by
    rw [microsecond_array_eq]
    refine arrayLookup_filter_dropped fun v => decide_eq_false ?_
    rw [show (Fin.ofNat 512 (cellKey b o / 256)) = arrayRow b o from rowOfKey_cellKey b o]
    exact Nat.not_lt.2 lost
  have epoch : (s.microsecond.rows.get (rowOfKey (cellKey b o))).epoch = (s.rows.get (arrayRow b o)).epoch + 1 := by
    rw [microsecond_rows_eq, rowOfKey_cellKey, rowsTick_get, if_neg (Nat.not_lt.2 lost)]
  unfold State.bufByte State.cell
  rw [cell, epoch]

/-! ## Interval expiries (R128, R130) -/

/-- Records change the ports alone. -/
theorem placeAll_ports_alone (s : State) (l : List Port) (r : Record) : s.placeAll l r = { s with ports := (s.placeAll l r).ports } :=
  placeAll_induct (P := fun t => t = { s with ports := t.ports }) (fun t p h => by
    rcases place_frame t p r with e | e <;> (rw [e, h]; try rfl)) l s rfl

theorem place_port_other (s : State) {p q : Port} (h : q ≠ p) (r : Record) : (s.place p r).port q = s.port q := by
  rcases place_frame s p r with e | e
  · rw [e]
  · rw [e, port_modPort_other s h]

theorem placeAll_port_other {q : Port} (l : List Port) (h : q ∉ l) (s : State) (r : Record) : (s.placeAll l r).port q = s.port q := by
  unfold State.placeAll
  induction l generalizing s with
  | nil => rfl
  | cons p l ih =>
    obtain ⟨hp, hl⟩ := not_or.1 fun e => h (List.mem_cons.2 e)
    rw [List.foldl_cons, ih hl, place_port_other s hp]

/-- A port among distinct ports that are handed a record gets it once. -/
theorem placeAll_port_mem {q : Port} {l : List Port} (distinct : l.Nodup) (h : q ∈ l) {s : State} (attached : s.attached q = true)
    (r : Record) : (s.placeAll l r).port q = { s.port q with notes := (s.port q).notes.hand r } := by
  unfold State.placeAll
  induction l generalizing s with
  | nil => exact absurd h List.not_mem_nil
  | cons p l ih =>
    obtain ⟨hp, distinct'⟩ := List.nodup_cons.1 distinct
    rw [List.foldl_cons]
    rcases List.mem_cons.1 h with e | e
    · subst e
      rw [show (l.foldl (fun t p => t.place p r) (s.place q r)).port q = (s.place q r).port q from placeAll_port_other l hp _ r,
        place_attached (not_detached_of_attached attached), port_modPort_same]
    · have other : q ≠ p := fun h => hp (h ▸ e)
      rw [ih distinct' e (by rw [place_attached_iff]; exact attached), place_port_other s other]

theorem attachedPorts_nodup (s : State) : s.attachedPorts.Nodup := List.Nodup.filter _ (by decide)

theorem mem_attachedPorts (s : State) (p : Port) : p ∈ s.attachedPorts ↔ s.attached p = true := by
  simp [State.attachedPorts, mem_allPorts]

theorem placeAll_attachedPorts_port (s : State) (r : Record) (q : Port) : (s.placeAll s.attachedPorts r).port q =
    { s.port q with notes := if s.attached q then (s.port q).notes.hand r else (s.port q).notes } := by
  by_cases h : s.attached q = true
  · rw [placeAll_port_mem (attachedPorts_nodup s) ((mem_attachedPorts s q).2 h) h, if_pos h]
  · rw [placeAll_port_other _ (fun e => h ((mem_attachedPorts s q).1 e)), if_neg h]

theorem placeAll_attached (l : List Port) (s : State) (r : Record) (p : Port) : (s.placeAll l r).attached p = s.attached p :=
  placeAll_induct (P := fun t => t.attached p = s.attached p) (fun _ _ h => (place_attached_iff ..).trans h) l s rfl

/-- One record for each bank of a list to each attached port. -/
theorem foldl_placeAll_port (l : List BankIx) (f : BankIx → Record) (s : State) (q : Port) :
    (l.foldl (fun t k => t.placeAll t.attachedPorts (f k)) s).port q =
      { s.port q with
        notes := if s.attached q then l.foldl (fun x k => x.hand (f k)) (s.port q).notes else (s.port q).notes } := by
  induction l generalizing s with
  | nil => rw [List.foldl_nil, List.foldl_nil, ite_self]
  | cons k l ih =>
    rw [List.foldl_cons, ih, placeAll_attachedPorts_port, placeAll_attached]
    by_cases h : s.attached q = true
    · simp only [h, if_true, List.foldl_cons]
    · simp only [h, if_false, Bool.false_eq_true]

theorem foldl_placeAll_ports_alone (l : List BankIx) (f : BankIx → Record) (s : State) :
    l.foldl (fun t k => t.placeAll t.attachedPorts (f k)) s =
      { s with ports := (l.foldl (fun t k => t.placeAll t.attachedPorts (f k)) s).ports } := by
  induction l generalizing s with
  | nil => rfl
  | cons k l ih =>
    rw [List.foldl_cons, ih, placeAll_ports_alone s]

theorem intervalExpiry_port (s : State) (q : Port) : s.intervalExpiry.port q =
    { s.port q with
      notes :=
        if s.attached q then
          s.missingBanks.foldl (fun x k => x.hand (mkRecord .refreshMissed k.val 0)) (s.port q).notes
        else (s.port q).notes } := foldl_placeAll_port ..

theorem intervalExpiry_alone (s : State) : s.intervalExpiry =
    { s with ports := s.intervalExpiry.ports, refresh := s.refresh.map RefreshBank.expire } := foldl_placeAll_ports_alone ..

/-! ## The parts of a µs tick -/

section
variable {s : State}

theorem tickInterval_due (h : s.refreshInterval ≤ s.intervalCounter + 1) :
    s.tickInterval = ({ s with intervalCounter := 0 } : State).intervalExpiry := if_pos h

theorem tickInterval_not_due (h : s.intervalCounter + 1 < s.refreshInterval) :
    s.tickInterval = { s with intervalCounter := s.intervalCounter + 1 } := if_neg (Nat.not_le.2 h)

theorem tickMs_due (h : 1000 ≤ s.msCounter + 1) : s.tickMs = ({ s with msCounter := 0 } : State).millisecond := if_pos h

theorem tickMs_not_due (h : s.msCounter + 1 < 1000) : s.tickMs = { s with msCounter := s.msCounter + 1 } := if_neg (Nat.not_le.2 h)

end

theorem microsecond_eq (s : State) : s.microsecond = ({ s.rowsTick with usDivider := 0 } : State).tickInterval.tickMs := by
  unfold State.microsecond
  rw [ageRows_eq]
  rfl

/-- The interval's part of a tick, counter and banks and queues. -/
theorem tickInterval_alone (s : State) : s.tickInterval =
    { s with
      ports := s.tickInterval.ports
      refresh := if s.refreshInterval ≤ s.intervalCounter + 1 then s.refresh.map RefreshBank.expire else s.refresh
      intervalCounter := if s.refreshInterval ≤ s.intervalCounter + 1 then 0 else s.intervalCounter + 1 } := by
  by_cases h : s.refreshInterval ≤ s.intervalCounter + 1
  · rw [tickInterval_due h, intervalExpiry_alone, if_pos h, if_pos h]
  · rw [tickInterval_not_due (Nat.not_le.1 h), if_neg h, if_neg h]

theorem tickInterval_port (s : State) (q : Port) : s.tickInterval.port q = { s.port q with notes := s.notesTick q } := by
  by_cases h : s.refreshInterval ≤ s.intervalCounter + 1
  · have missed : s.missesAtTick = s.missingBanks := if_pos h
    rw [tickInterval_due h, intervalExpiry_port, State.notesTick, missed]
    rfl
  · have none : s.missesAtTick = [] := if_neg h
    rw [tickInterval_not_due (Nat.not_le.1 h), State.notesTick, none, List.foldl_nil, ite_self]
    rfl

/-! ## The ticks as commands (R159; log 6) -/

theorem exec_usTick {s : State} (high : s.resetLow = false) : exec .usTick s = .next s.microsecond.settle :=
  congrArg done (if_pos (by rw [high]; rfl))

/-- A tick that brings an event about is the µs tick. -/
theorem tickWhen_of_due (s : State) {due : Bool} (h : due = true) :
    done (s.tickWhen due) = exec .usTick s := by
  rw [h]
  rfl

theorem tickWhen_of_not_due (s : State) {due : Bool} (h : due = false) : done (s.tickWhen due) = .next s.settle := by
  unfold State.tickWhen
  rw [h, Bool.and_false, if_neg Bool.false_ne_true]
  rfl

theorem tickWhen_iff (s : State) {due : Bool} {p : Prop} [Decidable p] (h : due = true ↔ p) :
    done (s.tickWhen due) = if p then exec .usTick s else .next s.settle := by
  by_cases hp : p
  · rw [if_pos hp, tickWhen_of_due s (h.2 hp)]
  · rw [if_neg hp, tickWhen_of_not_due s (Bool.eq_false_iff.2 fun e => hp (h.1 e))]

/-- Settles O28: the µs tick and the commands that are it when their event is due. -/
theorem microsecondTick : Obligations.MicrosecondTick := by
  unfold Obligations.MicrosecondTick
  intro s high
  refine ⟨fun ms interval => ?_, ?_, ?_, ?_, fun p => ?_, fun b r => ?_⟩
  · rw [exec_usTick high]
    refine congrArg (fun t : State => Host.Outcome.next t.settle) ?_
    rw [microsecond_eq, tickInterval_not_due (s := { s.rowsTick with usDivider := 0 }) interval,
      tickMs_not_due (s := { s.rowsTick with usDivider := 0, intervalCounter := _ }) ms]
    rfl
  · refine ⟨_, exec_usTick high, ?_, fun r => ?_, fun e => ?_, fun b o => ⟨fun wf young => ?_, fun old => ?_⟩⟩
    · rw [settle_usDivider, microsecond_eq]
      exact tickMs_keeps (P := fun t => t.usDivider = 0) (by rw [tickInterval_alone]; rfl) fun _ => by rw [tickInterval_alone]
    · rw [settle_rows, microsecond_rows_eq, rowsTick_get]
    · rw [settle_array, microsecond_array_eq]
      exact List.mem_filter.trans (and_congr_right fun _ => decide_eq_true_iff)
    · rw [settle_bufByte, microsecond_bufByte wf young]
    · rw [settle_bufByte, microsecond_bufByte_lost old]
  · exact tickWhen_iff s decide_eq_true_iff
  · exact tickWhen_iff s decide_eq_true_iff
  · exact tickWhen_iff s (Bool.and_eq_true_iff.trans (and_congr decide_eq_true_iff Iff.rfl))
  · refine tickWhen_iff s (Bool.and_eq_true_iff.trans (and_congr decide_eq_true_iff ?_))
    exact Option.any_eq_true _ _

end Sys2Proof.Machine
end

section
/-! The ms tick: O29 (R67, R76, R159). -/

namespace Sys2Proof.Machine

/-! ## The state that a ms tick works on -/

/-- The state after the interval's part of a tick, the ms counter at 0. -/
def State.beforeMs (s : State) : State := { ({ s.rowsTick with usDivider := 0 } : State).tickInterval with msCounter := 0 }

theorem microsecond_of_ms {s : State} (due : 1000 ≤ s.msCounter + 1) : s.microsecond = s.beforeMs.millisecond := by
  have due' : 1000 ≤ ({ s.rowsTick with usDivider := 0 } : State).tickInterval.msCounter + 1 := by
    rw [tickInterval_alone]
    exact due
  rw [microsecond_eq, tickMs_due due']
  rfl

section
variable (s : State)

theorem beforeMs_port (p : Port) : s.beforeMs.port p = { s.port p with notes := s.notesTick p } := tickInterval_port ..

theorem beforeMs_alone : s.beforeMs =
    { s with
      ports := s.beforeMs.ports
      refresh := if s.refreshInterval ≤ s.intervalCounter + 1 then s.refresh.map RefreshBank.expire else s.refresh
      intervalCounter := if s.refreshInterval ≤ s.intervalCounter + 1 then 0 else s.intervalCounter + 1
      usDivider := 0, msCounter := 0, rows := s.rowsTick.rows, array := s.rowsTick.array } := by
  unfold State.beforeMs
  rw [tickInterval_alone]
  rfl

theorem beforeMs_buf (b : BufIx) : s.beforeMs.buf b = s.buf b := by rw [beforeMs_alone]; rfl

theorem beforeMs_expiry : s.beforeMs.expiry = s.expiry := by rw [beforeMs_alone]

theorem beforeMs_sessionState (p : Port) : s.beforeMs.sessionState p = s.sessionState p := by
  rw [State.sessionState, beforeMs_port]
  rfl

theorem beforeMs_leaseCounts : s.beforeMs.leaseCounts = s.leaseCounts := by
  funext e
  rw [State.leaseCounts, State.leaseCounts, beforeMs_sessionState]

theorem beforeMs_leaseDue : s.beforeMs.leaseDue = s.leaseDue := by
  funext e
  rw [State.leaseDue, State.leaseDue, beforeMs_leaseCounts]

theorem beforeMs_tickRole : s.beforeMs.tickRole = s.tickRole := by
  funext e
  rw [State.tickRole, State.tickRole, beforeMs_leaseCounts]

theorem beforeMs_expiriesOf : s.beforeMs.expiriesOf = s.expiriesOf := by
  funext b
  unfold State.expiriesOf
  rw [beforeMs_buf, beforeMs_leaseDue]

end

/-! ## Wait timers and roles (R67, R76) -/

theorem tickTimer_eq (x : PortState) : x.tickTimer =
    { x with
      engine :=
        { x.engine with
          timer :=
            if x.engine.state = .waiting ∧ x.engine.cancelMarker = false ∧ x.session.state = .active then
              match x.engine.timer with
              | some (.count n) => if n.toNat ≤ 1 then none else some (.count (n - 1))
              | other => other
            else x.engine.timer } } := by
  have runs : x.timerRuns = true ↔ x.engine.state = .waiting ∧ x.engine.cancelMarker = false ∧ x.session.state = .active := by
    simp [PortState.timerRuns, and_assoc]
  have ticks : x.engine.timer.bind WaitTimer.tick = match x.engine.timer with
      | some (.count n) => if n.toNat ≤ 1 then none else some (.count (n - 1))
      | other => other := by
    cases x.engine.timer with
    | none => rfl
    | some t => cases t <;> rfl
  unfold PortState.tickTimer
  by_cases h : x.timerRuns = true
  · rw [if_pos h, if_pos (runs.1 h), ticks]
  · rw [if_neg h, if_neg fun e => h (runs.2 e)]

/-- A role's lease under the ms tick. -/
theorem tickRole_eq (s : State) (e : Role) : s.tickRole e =
    match e.lease with
    | some l => if s.sessionState e.port = .active ∧ l.remaining ≠ 0
        then { e with lease := some { l with remaining := l.remaining - 1 } } else e
    | none => e := by
  unfold State.tickRole State.leaseCounts
  cases h : e.lease with
  | none => simp
  | some l =>
    simp only [Option.any_some, Bool.and_eq_true, beq_iff_eq, bne_iff_ne, Option.map_some]

theorem tickRole_port (s : State) (e : Role) : (s.tickRole e).port = e.port := by
  unfold State.tickRole
  split <;> rfl

theorem leaseDue_iff (s : State) (e : Role) : s.leaseDue e = true ↔
    s.sessionState e.port = .active ∧ ∃ st, e.lease = some { remaining := 1, stage := st } := by
  unfold State.leaseDue State.leaseCounts
  cases h : e.lease with
  | none => simp
  | some l =>
    simp only [Option.any_some, Bool.and_eq_true, beq_iff_eq, bne_iff_ne, Option.some.injEq]
    constructor
    · rintro ⟨⟨active, _⟩, one⟩
      exact ⟨active, l.stage, by rw [← one]⟩
    · rintro ⟨active, st, one⟩
      rw [one]
      exact ⟨⟨active, (by decide : (1#16 : Word) ≠ 0)⟩, rfl⟩

/-! ## The expiry list (R76) -/

theorem expiryLookup_cons (y : Position × ExpiryEntry) (l : List (Position × ExpiryEntry)) (z : Position) :
    expiryLookup (y :: l) z = if y.1 = z then some y.2 else expiryLookup l z := by
  unfold expiryLookup
  by_cases h : y.1 = z
  · rw [if_pos h, List.find?_cons_of_pos (by simpa using h)]
    rfl
  · rw [if_neg h, List.find?_cons_of_neg (by simpa using h)]

theorem expiryLookup_insert_same (l : List (Position × ExpiryEntry)) (x : Position) (e : ExpiryEntry) :
    expiryLookup (expiryInsert l x e) x = some e := by
  induction l with
  | nil => rw [expiryInsert, expiryLookup_cons, if_pos rfl]
  | cons y l ih =>
    unfold expiryInsert
    split
    · rw [expiryLookup_cons, if_pos rfl]
    · split
      · rw [expiryLookup_cons, if_pos rfl]
      · rename_i h
        rw [expiryLookup_cons, if_neg (Ne.symm h), ih]

theorem expiryLookup_insert_other (l : List (Position × ExpiryEntry)) {x z : Position} (h : z ≠ x) (e : ExpiryEntry) :
    expiryLookup (expiryInsert l x e) z = expiryLookup l z := by
  induction l with
  | nil => rw [expiryInsert, expiryLookup_cons, if_neg (Ne.symm h)]
  | cons y l ih =>
    unfold expiryInsert
    split
    · rw [expiryLookup_cons, if_neg (Ne.symm h)]
    · split
      · rename_i hy
        rw [expiryLookup_cons, expiryLookup_cons, if_neg (Ne.symm h), if_neg (hy ▸ Ne.symm h)]
      · rw [expiryLookup_cons, expiryLookup_cons, ih]

theorem expiryLookup_foldl_other {m : List (Position × ExpiryEntry)} {x : Position} (h : ∀ y ∈ m, y.1 ≠ x)
    (l : List (Position × ExpiryEntry)) :
    expiryLookup (m.foldl (fun l e => expiryInsert l e.1 e.2) l) x = expiryLookup l x := by
  induction m generalizing l with
  | nil => rfl
  | cons y m ih =>
    rw [List.foldl_cons, ih (fun z hz => h z (List.mem_cons_of_mem _ hz)),
      expiryLookup_insert_other l (Ne.symm (h y (List.mem_cons_self ..)))]

/-- Entries placed at a position, all of one value. -/
theorem expiryLookup_foldl_same {m : List (Position × ExpiryEntry)} {x : Position} {e : ExpiryEntry} (mem : (x, e) ∈ m)
    (same : ∀ y ∈ m, y.1 = x → y.2 = e) (l : List (Position × ExpiryEntry)) :
    expiryLookup (m.foldl (fun l e => expiryInsert l e.1 e.2) l) x = some e := by
  induction m generalizing l with
  | nil => exact absurd mem List.not_mem_nil
  | cons y m ih =>
    rw [List.foldl_cons]
    by_cases later : (x, e) ∈ m
    · exact ih later (fun z hz => same z (List.mem_cons_of_mem _ hz)) _
    · rcases List.mem_cons.1 mem with rfl | h
      · rw [expiryLookup_foldl_other, expiryLookup_insert_same]
        intro z hz hx
        have value := same z (List.mem_cons_of_mem _ hz) hx
        exact later (hx ▸ value ▸ hz)
      · exact absurd h later

/-- The entries of a ms tick. -/
theorem mem_expiriesOf (s : State) (b : BufIx) (y : Position × ExpiryEntry) : y ∈ s.expiriesOf b ↔
    (∃ h, (s.buf b).holder = some h ∧ s.leaseDue h = true ∧
      y = ({ buffer := b, role := .holder }, { generation := (s.buf b).generation, holder := some h.port })) ∨
    ∃ e ∈ (s.buf b).readers, s.leaseDue e = true ∧
      y = ({ buffer := b, role := .reader e.port }, { generation := (s.buf b).generation, holder := none }) := by
  unfold State.expiriesOf
  simp only [List.mem_append, List.mem_map, List.mem_filter, Option.mem_toList, and_assoc]
  refine or_congr (exists_congr fun h => ?_) (exists_congr fun e => ?_) <;>
    exact and_congr_right fun _ => and_congr_right fun _ => eq_comm

theorem millisecond_expiry_eq (s : State) : s.millisecond.expiry =
    (allBuffers.flatMap s.expiriesOf).foldl (fun l e => expiryInsert l e.1 e.2) s.expiry := rfl

theorem mem_allBuffers (b : BufIx) : b ∈ allBuffers := List.mem_finRange b

theorem mem_allExpiries (s : State) (y : Position × ExpiryEntry) : y ∈ allBuffers.flatMap s.expiriesOf ↔ y ∈ s.expiriesOf y.1.buffer := by
  rw [List.mem_flatMap]
  constructor
  · rintro ⟨b, _, hb⟩
    have buffer : y.1.buffer = b := by
      rcases (mem_expiriesOf s b y).1 hb with ⟨_, _, _, rfl⟩ | ⟨_, _, _, rfl⟩ <;> rfl
    rw [buffer]
    exact hb
  · exact fun h => ⟨_, mem_allBuffers _, h⟩

/-! ## The ms tick -/

theorem exec_msTick {s : State} (high : s.resetLow = false) (due : 1000 ≤ s.msCounter + 1) :
    exec .msTick s = .next s.beforeMs.millisecond.settle := by
  rw [← microsecond_of_ms due, ← exec_usTick high]
  exact (tickWhen_iff s decide_eq_true_iff).trans (if_pos due)

theorem millisecond_alone (s : State) : s.millisecond =
    { s with ports := s.millisecond.ports, buffers := s.millisecond.buffers, expiry := s.millisecond.expiry } := rfl

theorem millisecond_buf (s : State) (b : BufIx) : s.millisecond.buf b =
    { s.buf b with holder := (s.buf b).holder.map s.tickRole, readers := (s.buf b).readers.map s.tickRole } := vector_get_map ..

/-- The states of the settling that ends a step differ in the ports, the sweep and the offer. -/
theorem settle_alone (s : State) : s.settle =
    { s with ports := s.settle.ports, sweep := s.settle.sweep, lmOffer := s.settle.lmOffer } := by
  rcases settle_cases s with h | ⟨x, o, h⟩
  · rw [h]
  · rw [h]

section
variable {s : State} (x : Position)

/-- No role at a position runs out: what stands there stays. -/
theorem msTick_lookup_other (quiet : ∀ e ∈ (match x.role with
      | .holder => (s.buf x.buffer).holder.toList
      | .reader p => (s.buf x.buffer).readers.filter fun e => e.port == p),
      ∀ st, e.lease = some { remaining := 1, stage := st } → s.sessionState e.port ≠ .active) :
    expiryLookup s.millisecond.expiry x = expiryLookup s.expiry x := by
  refine expiryLookup_foldl_other (fun y hy hx => ?_) _
  have mem := (mem_allExpiries s y).1 hy
  rw [hx] at mem
  rcases (mem_expiriesOf s _ y).1 mem with ⟨h, holder, due, e⟩ | ⟨r, reader, due, e⟩
  · have role : x.role = .holder := by rw [← hx, e]
    obtain ⟨active, st, lease⟩ := (leaseDue_iff s h).1 due
    rw [role] at quiet
    exact quiet h (Option.mem_toList.2 holder) st lease active
  · have role : x.role = .reader r.port := by rw [← hx, e]
    obtain ⟨active, st, lease⟩ := (leaseDue_iff s r).1 due
    rw [role] at quiet
    exact quiet r (List.mem_filter.2 ⟨reader, beq_self_eq_true r.port⟩) st lease active

theorem msTick_lookup_holder {b : BufIx} {e : Port} {st : Stage}
    (holder : (s.buf b).holder = some { port := e, lease := some { remaining := 1, stage := st } }) (active : s.sessionState e = .active) :
    expiryLookup s.millisecond.expiry { buffer := b, role := .holder } = some { generation := (s.buf b).generation, holder := some e } := by
  refine expiryLookup_foldl_same ?_ (fun y hy hx => ?_) _
  · exact (mem_allExpiries s _).2 ((mem_expiriesOf s b _).2 (.inl ⟨_, holder, (leaseDue_iff s _).2 ⟨active, st, rfl⟩, rfl⟩))
  · rcases (mem_expiriesOf s _ y).1 ((mem_allExpiries s y).1 hy) with ⟨h, holder', due, e⟩ | ⟨_, _, _, e⟩
    · rw [hx] at holder' e
      rw [holder] at holder'
      cases holder'
      rw [e]
    · rw [e] at hx
      cases hx

theorem msTick_lookup_reader {b : BufIx} {e : Port} {st : Stage}
    (reader : { port := e, lease := some { remaining := 1, stage := st } } ∈ (s.buf b).readers) (active : s.sessionState e = .active) :
    expiryLookup s.millisecond.expiry { buffer := b, role := .reader e } = some { generation := (s.buf b).generation, holder := none } := by
  refine expiryLookup_foldl_same ?_ (fun y hy hx => ?_) _
  · exact (mem_allExpiries s _).2 ((mem_expiriesOf s b _).2 (.inr ⟨_, reader, (leaseDue_iff s _).2 ⟨active, st, rfl⟩, rfl⟩))
  · rcases (mem_expiriesOf s _ y).1 ((mem_allExpiries s y).1 hy) with ⟨_, _, _, e⟩ | ⟨_, _, _, e⟩
    · rw [e] at hx
      cases hx
    · rw [hx] at e
      rw [e]

end

/-- The role at a position, when the roles of its record are ticked. -/
theorem roleAt_tickRole {s t : State} {b : BufIx} {role : LeaseRole} {e : Role}
    (buf : t.buf b = { s.buf b with holder := (s.buf b).holder.map s.tickRole, readers := (s.buf b).readers.map s.tickRole })
    (h : s.roleAt { buffer := b, role := role } = some e) : t.roleAt { buffer := b, role := role } = some (s.tickRole e) := by
  unfold State.roleAt at h ⊢
  rw [buf]
  cases role with
  | holder => exact (congrArg (Option.map s.tickRole) h :)
  | reader p =>
    have ports : (fun e : Role => e.port == p) ∘ s.tickRole = fun e => e.port == p :=
      funext fun e => congrArg (· == p) (tickRole_port s e)
    refine (List.find?_map ..).trans ?_
    rw [ports]
    exact (congrArg (Option.map s.tickRole) h :)

theorem state_of_roles (r : BufRec) (f : Role → Role) :
    ({ r with holder := r.holder.map f, readers := r.readers.map f } : BufRec).state = r.state := by
  unfold BufRec.state
  simp

/-- Settles O29: what a ms tick changes, and the two commands that name it. -/
theorem millisecondTick : Obligations.MillisecondTick := by
  unfold Obligations.MillisecondTick
  refine ⟨fun s high due => ?_, fun p s high due waiting marker active timer => ?_, fun b role e st s high due at' active lease => ?_⟩
  · refine ⟨_, exec_msTick high due, ?_, ?_, fun short => ?_, fun p => ?_, fun x quiet => ?_, ?_, fun b e st holder active => ?_,
      fun b e st reader active => ?_⟩
    · rw [settle_msCounter, millisecond_alone]
      rfl
    · rw [settle_alone, millisecond_alone, beforeMs_alone]
    · rw [settle_refresh, millisecond_alone, beforeMs_alone]
      exact if_neg (Nat.not_le.2 short)
    · have high' : s.beforeMs.millisecond.resetLow = false := by
        rw [millisecond_alone, beforeMs_alone]
        exact high
      rw [settle_port_of_high high', millisecond_port, beforeMs_port, tickTimer_eq]
      rfl
    · have none : expiryLookup s.beforeMs.millisecond.expiry x = expiryLookup s.beforeMs.expiry x := by
        refine msTick_lookup_other x ?_
        simp only [beforeMs_buf, beforeMs_sessionState]
        exact quiet
      rw [settle_expiry, none, beforeMs_expiry]
    · intro counted b
      have role : s.tickRole = counted := funext (tickRole_eq s)
      rw [settle_buf, millisecond_buf, beforeMs_buf, beforeMs_tickRole, role]
    · rw [settle_expiry, msTick_lookup_holder (s := s.beforeMs) (by rw [beforeMs_buf]; exact holder)
        (by rw [beforeMs_sessionState]; exact active), beforeMs_buf]
    · rw [settle_expiry, msTick_lookup_reader (s := s.beforeMs) (by rw [beforeMs_buf]; exact reader)
        (by rw [beforeMs_sessionState]; exact active), beforeMs_buf]
  · have count : (s.port p).timerDue = true := by
      simp only [PortState.timerDue, PortState.timerRuns, waiting, marker, show (s.port p).session.state = .active from active, timer]
      rfl
    have tick : exec (.waitTimerExpiry p) s = .next s.beforeMs.millisecond.settle := by
      rw [← microsecond_of_ms due, ← exec_usTick high]
      exact tickWhen_of_due s (Bool.and_eq_true_iff.2 ⟨decide_eq_true due, count⟩)
    obtain ⟨path, bulk, port⟩ := settle_port_frame s.beforeMs.millisecond p
    rw [millisecond_port, beforeMs_port, tickTimer_eq] at port
    have expired : (s.beforeMs.millisecond.settle.port p).engine.timer = none := by
      rw [port]
      simp only [waiting, marker, show (s.port p).session.state = .active from active, timer, and_self, if_true]
      rfl
    have still : (s.beforeMs.millisecond.settle.port p).engine.state = .waiting := by rw [port]; exact waiting
    have unmarked : (s.beforeMs.millisecond.settle.port p).engine.cancelMarker = false := by rw [port]; exact marker
    have session : s.beforeMs.millisecond.settle.sessionState p = .active := by rw [State.sessionState, port]; exact active
    refine ⟨_, tick, expired, still, ?_, ?_, ?_⟩
    · simp only [State.offer, Engine.offer, session, still, unmarked, expired]
      rfl
    · rw [settle_claimWait, millisecond_alone, beforeMs_alone]
    · rw [settle_channels, millisecond_alone, beforeMs_alone]
  · have runsOut : s.leaseDue e = true := (leaseDue_iff s e).2 ⟨active, st, lease⟩
    have tick : exec (.leaseRunOut b role) s = .next s.beforeMs.millisecond.settle := by
      rw [← microsecond_of_ms due, ← exec_usTick high]
      have named : (s.leaseRole b role).any s.leaseDue = true := by
        rw [State.leaseRole, at']
        exact runsOut
      exact tickWhen_of_due s (Bool.and_eq_true_iff.2 ⟨decide_eq_true due, named⟩)
    have buf : ∀ d, s.beforeMs.millisecond.settle.buf d =
        { s.buf d with holder := (s.buf d).holder.map s.tickRole, readers := (s.buf d).readers.map s.tickRole } := fun d => by
      rw [settle_buf, millisecond_buf, beforeMs_buf, beforeMs_tickRole]
    have ticked : s.tickRole e = { e with lease := some { remaining := 0, stage := st } } := by
      rw [tickRole_eq, lease]
      have counts : s.sessionState e.port = .active ∧ (1#16 : Word) ≠ 0 := ⟨active, by decide⟩
      have spent : (1 : Word) - 1 = 0 := by decide
      refine (if_pos (c := s.sessionState e.port = .active ∧ (1#16 : Word) ≠ 0) counts).trans ?_
      exact congrArg (fun n : Word => ({ e with lease := some { remaining := n, stage := st } } : Role)) spent
    refine ⟨_, tick, ?_, fun d => ?_⟩
    · rw [← ticked]
      exact roleAt_tickRole (buf b) at'
    · rw [buf]
      exact ⟨state_of_roles _ _, rfl⟩

end Sys2Proof.Machine
end

section
/-! The refresh engine: O30 (R126 to R130). -/

namespace Sys2Proof.Machine

/-! ## What every µs tick does to the refresh engine -/

section
variable {s : State}

theorem microsecond_of_not_ms (short : s.msCounter + 1 < 1000) : s.microsecond =
    { ({ s.rowsTick with usDivider := 0 } : State).tickInterval with msCounter := s.msCounter + 1 } := by
  have counter : ({ s.rowsTick with usDivider := 0 } : State).tickInterval.msCounter = s.msCounter := by rw [tickInterval_alone]; rfl
  rw [microsecond_eq, tickMs_not_due (by rw [counter]; exact short), counter]

theorem microsecond_refresh (due : s.refreshInterval ≤ s.intervalCounter + 1) : s.microsecond.refresh = s.refresh.map RefreshBank.expire := by
  by_cases ms : 1000 ≤ s.msCounter + 1
  · rw [microsecond_of_ms ms, millisecond_alone, beforeMs_alone]
    exact if_pos due
  · rw [microsecond_of_not_ms (Nat.not_le.1 ms), tickInterval_alone]
    exact if_pos due

theorem microsecond_intervalCounter (due : s.refreshInterval ≤ s.intervalCounter + 1) : s.microsecond.intervalCounter = 0 := by
  by_cases ms : 1000 ≤ s.msCounter + 1
  · rw [microsecond_of_ms ms, millisecond_alone, beforeMs_alone]
    exact if_pos due
  · rw [microsecond_of_not_ms (Nat.not_le.1 ms), tickInterval_alone]
    exact if_pos due

theorem microsecond_port_notes (q : Port) : (s.microsecond.port q).notes = s.notesTick q := by
  by_cases ms : 1000 ≤ s.msCounter + 1
  · rw [microsecond_of_ms ms, millisecond_port, beforeMs_port, tickTimer_eq]
  · rw [microsecond_of_not_ms (Nat.not_le.1 ms)]
    exact congrArg PortState.notes (tickInterval_port _ q)

theorem microsecond_port_short (short : s.msCounter + 1 < 1000) (q : Port) :
    s.microsecond.port q = { s.port q with notes := s.notesTick q } := by
  rw [microsecond_of_not_ms short]
  exact tickInterval_port _ q

/-- A bank at an interval expiry (R128, R130). -/
theorem microsecond_bankRefresh (due : s.refreshInterval ≤ s.intervalCounter + 1) (k : BankIx) :
    s.microsecond.bankRefresh k = (s.bankRefresh k).expire := by
  rw [State.bankRefresh, microsecond_refresh due]
  exact vector_get_map ..

theorem notesTick_due (due : s.refreshInterval ≤ s.intervalCounter + 1) (q : Port) : s.notesTick q =
    if s.attached q then
      (([0, 1, 2, 3] : List BankIx).filter fun k => 8 ≤ (s.bankRefresh k).debt).foldl
        (fun x k => x.hand { kind := .refreshMissed, subject := BitVec.ofNat 16 k.val, value := 0 }) (s.port q).notes
    else (s.port q).notes := by
  unfold State.notesTick State.missesAtTick
  rw [if_pos due]

theorem exec_intervalExpiry (high : s.resetLow = false) (due : s.refreshInterval ≤ s.intervalCounter + 1) :
    exec .intervalExpiry s = .next s.microsecond.settle :=
  (tickWhen_of_due s (decide_eq_true due)).trans (exec_usTick high)

/-! ## A refresh at its bank (R126, R129) -/

theorem refreshDone_eq {k : BankIx} (high : s.resetLow = false) (current : (s.arbiter k).current = some .refresh) : s.refreshDone k =
    ((s.restartRow (refreshRow k (s.bankRefresh k).rowPointer)).modRefresh k fun r =>
      { r with rowPointer := r.rowPointer + 1, debt := r.debt - 1 }).modArbiter k fun a => { a with current := none } :=
  if_pos (by rw [high, decide_eq_true current]; rfl)

theorem refreshRow_val (k : BankIx) (r : Fin 128) : (refreshRow k r).val = k.val * 128 + r.val :=
  Nat.mod_eq_of_lt (by have := k.isLt; have := r.isLt; omega)

theorem restartRow_rows (s : State) (r j : Fin 512) :
    (s.restartRow r).rows.get j = if j = r then { s.rows.get j with age := 0 } else s.rows.get j := by
  refine (vector_get_set ..).trans ?_
  split
  next h => rw [h]
  next => rfl

theorem cell_restartRow (s : State) (r : Fin 512) : (s.restartRow r).cell = s.cell := by
  refine cell_congr rfl fun j => ?_
  rw [restartRow_rows]
  split <;> rfl

end

/-- Settles O30: an interval expiry, and a bank's refresh granted and carried out. -/
theorem refreshEngine : Obligations.RefreshEngine := by
  unfold Obligations.RefreshEngine
  refine ⟨fun s high due => ?_, fun k s => ⟨fun choice => ?_, fun high current => ?_⟩⟩
  · refine ⟨_, exec_intervalExpiry high due, ?_, fun k => ?_, fun q => ?_, ?_, ?_, fun short => ⟨?_, fun q => ?_⟩⟩
    · rw [settle_intervalCounter, microsecond_intervalCounter due]
    · rw [settle_bankRefresh, microsecond_bankRefresh due]
      exact ⟨fun room => if_pos room, fun full => if_neg (Nat.not_lt.2 full)⟩
    · rw [settle_port_notes, microsecond_port_notes, notesTick_due due]
    · rw [settle_rows, microsecond_rows_eq]
    · rw [settle_array, microsecond_array_eq]
    · have counter := microsecond_intervalCounter due
      rw [microsecond_of_not_ms short, tickInterval_alone] at counter ⊢
      rw [settle_alone]
      simp only at counter ⊢
      rw [counter]
      rfl
    · have high' : s.microsecond.resetLow = false := by
        rw [microsecond_of_not_ms short, tickInterval_alone]
        exact high
      rw [settle_port_of_high high', microsecond_port_short short]
  · exact congrArg (fun t => done t) (if_pos choice)
  · refine ⟨_, congrArg (fun t => done t) (refreshDone_eq high current), ?_, ?_, fun r => ?_, fun j other => ⟨?_, ?_⟩, fun b o => ?_, ?_, ?_⟩
    · rw [settle_arbiter, arbiter_modArbiter, if_pos rfl]
      rfl
    · rw [settle_bankRefresh, bankRefresh_modArbiter, bankRefresh_modRefresh, if_pos rfl]
      rfl
    · rw [settle_rows, modArbiter_rows, modRefresh_rows, restartRow_rows]
      simp only [Fin.ext_iff, refreshRow_val]
    · rw [settle_arbiter, arbiter_modArbiter, if_neg other]
      rfl
    · rw [settle_bankRefresh, bankRefresh_modArbiter, bankRefresh_modRefresh, if_neg other]
      rfl
    · rw [settle_bufByte]
      exact congrFun (cell_restartRow s _) _
    · rw [settle_buffers]
      rfl
    · rw [settle_channels]
      rfl

end Sys2Proof.Machine
end

section
/-! Windows and the stream: O31, O32 and O33 (Chapter 5). -/

namespace Sys2Proof.Machine

/-! ## MAP and UNMAP (R87 to R89, R104) -/

section
variable {s : State} {p : Port}

theorem state_of_heldBy {r : BufRec} (held : r.heldBy p = true) : r.state = .held :=
  if_pos ((Option.any_eq_true ..).1 held |>.elim fun _ h => Option.isSome_of_mem h.1)

theorem state_of_readBy {r : BufRec} (read : r.readBy p = true) (free : r.holder = none) : r.state = .reading := by
  have some : r.readers.isEmpty = false := by
    cases h : r.readers with
    | nil => rw [BufRec.readBy, h] at read; exact absurd read Bool.false_ne_true
    | cons => rfl
  simp [BufRec.state, free, some]

/-- A MAP's checks pass for the holder, and for a reader in mode RO (R87). -/
theorem mapRefusal_none (good : s.checkHandle (s.operand p 0) = none)
    (role : (s.buf (handleIx (s.operand p 0))).heldBy p = true ∨
      ((s.buf (handleIx (s.operand p 0))).readBy p = true ∧ (s.buf (handleIx (s.operand p 0))).holder = none ∧
        modeOperand (s.operand p 1) = .ro)) : s.mapRefusal p = none := by
  unfold State.mapRefusal
  rcases role with held | ⟨read, free, mode⟩
  · simp [good, state_of_heldBy held, BufRec.roleOf, held]
  · simp [good, state_of_readBy read free, BufRec.roleOf, read, mode]

/-- The result of a MAP whose checks pass (R88). -/
theorem finish_map_of_passed (passes : s.mapRefusal p = none) : ((Work.start s).map' p).finish =
    s.modPort p fun x => (x.mapWindow (windowOperand (s.operand p 1))
      { handle := s.operand p 0, mode := modeOperand (s.operand p 1),
        length := (s.buf (handleIx (s.operand p 0))).length }).completes .ok res0 false := by
  unfold Work.map'
  simp only [start_state, passes]
  rw [finish_complete rfl, map_state, start_state, modPort_modPort]

theorem exec_unmap_ready (h : s.blockReady p .unmap = true) : exec (.unmap p .carriedOut) s =
    .next (State.settle (s.modPort p fun x => (x.setWindow (windowOperand (s.operand p 0)) .unmapped).completes .ok res0 false)) := by
  refine (congrArg done (blockRequest_ready h _)).trans (congrArg done ?_)
  unfold Work.unmap
  rw [finish_complete rfl, map_state, start_state, modPort_modPort]

/-- What mapping a window changes (R88, R104). -/
theorem mapWindow_eq (x : PortState) (sel : WindowSel) (v : View) : x.mapWindow sel v =
    if x.stream.select = sel then
      { x.setWindow sel (.mapped v) with
        stream := { x.stream with pointer := 0, prefixDue := x.stream.lengthPrefix && x.stream.direction == .read }
        access := x.access.map fun a => { a with rearmed := true } }
    else x.setWindow sel (.mapped v) := by
  cases sel <;> rfl

end

/-- Settles O31: a MAP whose checks pass, and an UNMAP. -/
theorem mapAndUnmap : Obligations.MapAndUnmap := by
  unfold Obligations.MapAndUnmap
  refine ⟨fun p s granted good role => ?_, fun p s ready => ?_⟩
  · rw [exec_map_granted granted, finish_map_of_passed (s := s.served (.re p)) (mapRefusal_none good role)]
    simp only [mapWindow_eq]
    rfl
  · rw [exec_unmap_ready ready]
    refine congrArg done (modPort_congr s p ?_)
    unfold windowOperand
    by_cases second : (s.operand p 0).getLsbD 0 = true
    · rw [if_pos second, if_pos second]
      rfl
    · rw [if_neg second, if_neg second]
      rfl

/-! ## Where bus accesses begin (R91, R100 to R102, R165) -/

section
variable {s : State} {p : Port}

theorem busRead_ready (ready : s.busReady p = true) (st : Strobe) (body : State → State) : s.busRead p st body = body s := by
  obtain ⟨high, inactive, idle⟩ := busReady_iff.1 ready
  unfold State.busRead
  simp [high, inactive, idle]

theorem exec_windowRead_ready (ready : s.busReady p = true) (strobe : Strobe) (w : WindowSel) (word : BitVec 8) :
    exec (.windowRead { port := p, strobe := strobe } w word) s = .next (s.windowRead p w (2 * word.toNat) strobe).settle :=
  congrArg done (busRead_ready ready strobe _)

theorem exec_windowWrite_ready (ready : s.busReady p = true) (w : WindowSel) (word : BitVec 8) (d : Word) (l : Lanes) :
    exec (.windowWrite p w word d l) s = .next (s.windowWrite p w (2 * word.toNat) d l).settle :=
  congrArg done (busWrite_ready ready _)

theorem exec_streamDataRead_ready (ready : s.busReady p = true) (strobe : Strobe) :
    exec (.streamDataRead { port := p, strobe := strobe }) s = .next (s.streamRead p strobe).settle :=
  congrArg done (busRead_ready ready strobe _)

theorem exec_streamDataWrite_ready (ready : s.busReady p = true) (d : Word) (l : Lanes) :
    exec (.streamDataWrite p d l) s = .next (s.streamWrite p d l).settle :=
  congrArg done (busWrite_ready ready _)

theorem exec_streamSettingsWrite_ready (ready : s.busReady p = true) (d : Word) (l : Lanes) :
    exec (.streamSettingsWrite p d l) s = .next (s.settingsWrite p d l).settle :=
  congrArg done (busWrite_ready ready _)

/-- A read's answer on the data lines. -/
theorem answerRead_eq (s : State) (p : Port) (st : Strobe) (w : Word) :
    s.answerRead p st w = s.modPort p fun x => { x with dataBus := if st = .held then w else x.dataBus } := by
  cases st with
  | held => rfl
  | early => exact (modPort_id s p rfl).symm

theorem readFault_eq (s : State) (p : Port) (st : Strobe) : s.readFault p st = s.modPort p fun x =>
    { x with
      dataBus := if st = .held then 0xFFFF#16 else x.dataBus
      session := { x.session with windowFault := true } } := by
  unfold State.readFault State.setWindowFault State.modSession
  rw [answerRead_eq, modPort_modPort]

/-- A write's enables: at least one lane. -/
theorem some_lane_iff (l : Lanes) : (!l.lo && !l.hi) = false ↔ l.lo = true ∨ l.hi = true := by
  obtain ⟨lo, hi⟩ := l
  cases lo <;> simp

theorem no_lane {l : Lanes} (lo : l.lo = false) (hi : l.hi = false) : (!l.lo && !l.hi) = true := by rw [lo, hi]; rfl

section
variable {v : View} {sel : WindowSel} {l : Lanes} {d : Word} {o : Nat} {st : Strobe}

theorem windowRead_mapped (mapped : (s.port p).window sel = .mapped v) :
    s.windowRead p sel o st = s.beginAccess p (.windowRead st) sel (handleIx v.handle) o := by
  unfold State.windowRead
  rw [mapped]

theorem windowRead_not_mapped (other : ∀ v, (s.port p).window sel ≠ .mapped v) : s.windowRead p sel o st = s.readFault p st := by
  unfold State.windowRead
  split
  next v h => exact absurd h (other v)
  next => rfl

theorem windowWrite_mapped (lanes : l.lo = true ∨ l.hi = true) (mapped : (s.port p).window sel = .mapped v) :
    s.windowWrite p sel o d l = s.beginAccess p (.windowWrite d l) sel (handleIx v.handle) o := by
  unfold State.windowWrite
  rw [(some_lane_iff l).2 lanes, mapped]
  rfl

theorem windowWrite_not_mapped (lanes : l.lo = true ∨ l.hi = true) (other : ∀ v, (s.port p).window sel ≠ .mapped v) :
    s.windowWrite p sel o d l = s.setWindowFault p := by
  unfold State.windowWrite
  rw [(some_lane_iff l).2 lanes]
  split
  next h => exact absurd h Bool.false_ne_true
  next =>
    split
    next v h => exact absurd h (other v)
    next => rfl

/-! ### The stream's cases, read and write -/

theorem streamRead_not_mapped (other : ∀ v, (s.port p).streamWindow ≠ .mapped v) : s.streamRead p st = s.readFault p st := by
  unfold State.streamRead
  dsimp only
  split
  next v h => exact absurd h (other v)
  next => rfl

theorem streamRead_writing (writing : (s.port p).stream.direction = .write) : s.streamRead p st = s.readFault p st := by
  unfold State.streamRead
  dsimp only
  split
  next => exact if_pos writing
  next => rfl

theorem streamEnd_reading (mapped : (s.port p).streamWindow = .mapped v) (reading : (s.port p).stream.direction = .read) :
    (s.port p).streamEnd = 2 * ((v.length + 1) / 2) := by
  unfold PortState.streamEnd
  rw [mapped]
  exact if_pos reading

section
variable (mapped : (s.port p).streamWindow = .mapped v) (reading : (s.port p).stream.direction = .read)
include mapped reading

/-- A read of a stream in direction READ through a MAPPED window (R100). -/
theorem streamRead_mapped : s.streamRead p st =
    if (s.port p).stream.prefixDue then
      (s.answerRead p st (BitVec.ofNat 16 v.length)).modPort p fun x => { x with stream := { x.stream with prefixDue := false } }
    else if (s.port p).stream.pointer < 2 * ((v.length + 1) / 2) then
      s.beginAccess p (.streamRead st) (s.port p).stream.select (handleIx v.handle) (s.port p).stream.pointer
    else s.readFault p st := by
  unfold State.streamRead
  dsimp only
  rw [mapped]
  refine (if_neg (by rw [reading]; decide)).trans ?_
  rw [streamEnd_reading mapped reading]

theorem streamRead_prefix (due : (s.port p).stream.prefixDue = true) : s.streamRead p st = s.modPort p fun x =>
    { x with
      dataBus := if st = .held then BitVec.ofNat 16 v.length else x.dataBus
      stream := { x.stream with prefixDue := false } } := by
  rw [streamRead_mapped mapped reading, if_pos due, answerRead_eq, modPort_modPort]

theorem streamRead_begins (passed : (s.port p).stream.prefixDue = false)
    (below : (s.port p).stream.pointer < 2 * ((v.length + 1) / 2)) : s.streamRead p st =
      s.beginAccess p (.streamRead st) (s.port p).stream.select (handleIx v.handle) (s.port p).stream.pointer := by
  rw [streamRead_mapped mapped reading, if_neg (by rw [passed]; decide), if_pos below]

theorem streamRead_beyond (passed : (s.port p).stream.prefixDue = false)
    (beyond : 2 * ((v.length + 1) / 2) ≤ (s.port p).stream.pointer) : s.streamRead p st = s.readFault p st := by
  rw [streamRead_mapped mapped reading, if_neg (by rw [passed]; decide), if_neg (Nat.not_lt.2 beyond)]

end

theorem streamWrite_no_lane (lo : l.lo = false) (hi : l.hi = false) : s.streamWrite p d l = s := if_pos (no_lane lo hi)

section
variable (lanes : l.lo = true ∨ l.hi = true)
include lanes

theorem streamWrite_not_mapped (other : ∀ v, (s.port p).streamWindow ≠ .mapped v) : s.streamWrite p d l = s.setWindowFault p := by
  unfold State.streamWrite
  dsimp only
  rw [(some_lane_iff l).2 lanes]
  split
  next h => exact absurd h Bool.false_ne_true
  next =>
    split
    next v h => exact absurd h (other v)
    next => rfl

theorem streamWrite_mapped (mapped : (s.port p).streamWindow = .mapped v) : s.streamWrite p d l =
    if (s.port p).stream.direction = .read ∨ v.mode = .ro ∨ 512 ≤ (s.port p).stream.pointer then s.setWindowFault p
    else s.beginAccess p (.streamWrite d l) (s.port p).stream.select (handleIx v.handle) (s.port p).stream.pointer := by
  unfold State.streamWrite
  dsimp only
  rw [(some_lane_iff l).2 lanes, mapped]
  simp [or_assoc]

end
end
end

/-- Settles O32: where window accesses and stream data accesses begin, and where they fault. -/
theorem accessBegins : Obligations.AccessBegins := by
  unfold Obligations.AccessBegins
  refine ⟨fun p w word strobe s ready => ⟨fun v mapped => ⟨?_, fun d l lanes => ?_⟩, fun other => ⟨?_, fun d l lanes => ?_⟩⟩,
    fun p strobe s ready => ⟨fun other => ?_, fun writing => ?_, fun v mapped reading =>
      ⟨fun due => ?_, fun passed below => ?_, fun passed beyond => ?_⟩, fun d l => ⟨fun lo hi => ?_, fun lanes =>
        ⟨fun other => ?_, fun v mapped => ⟨fun faults => ?_, fun writing mode below => ?_⟩⟩⟩⟩⟩
  · rw [exec_windowRead_ready ready, windowRead_mapped mapped]
    rfl
  · rw [exec_windowWrite_ready ready, windowWrite_mapped lanes mapped]
    rfl
  · rw [exec_windowRead_ready ready, windowRead_not_mapped other, readFault_eq]
  · rw [exec_windowWrite_ready ready, windowWrite_not_mapped lanes other]
    rfl
  · rw [exec_streamDataRead_ready ready, streamRead_not_mapped other, readFault_eq]
  · rw [exec_streamDataRead_ready ready, streamRead_writing writing, readFault_eq]
  · rw [exec_streamDataRead_ready ready, streamRead_prefix mapped reading due]
  · rw [exec_streamDataRead_ready ready, streamRead_begins mapped reading passed below]
    exact congrArg done (modPort_congr s p rfl)
  · rw [exec_streamDataRead_ready ready, streamRead_beyond mapped reading passed beyond, readFault_eq]
  · rw [exec_streamDataWrite_ready ready, streamWrite_no_lane lo hi]
  · rw [exec_streamDataWrite_ready ready, streamWrite_not_mapped lanes other]
    rfl
  · rw [exec_streamDataWrite_ready ready, streamWrite_mapped lanes mapped, if_pos faults]
    rfl
  · have passes : ¬((s.port p).stream.direction = .read ∨ v.mode = .ro ∨ 512 ≤ (s.port p).stream.pointer) := by
      rw [writing, mode]
      simp [below]
    rw [exec_streamDataWrite_ready ready, streamWrite_mapped lanes mapped, if_neg passes]
    exact congrArg done (modPort_congr s p rfl)

/-! ## The stream settings (R99) -/

/-- The offset of the settings, its lowest bit cleared and at most 512. -/
theorem even_offset (n : Nat) : min 512 (2 * (n / 2)) = if 512 < n then 512 else n - n % 2 := by
  split <;> omega

/-- Settles O33: a write of the stream settings. -/
theorem streamSettings : Obligations.StreamSettings := by
  unfold Obligations.StreamSettings
  intro p d l s ready offset
  rw [exec_streamSettingsWrite_ready ready, State.settingsWrite]
  by_cases both : l.lo = true ∧ l.hi = true
  · rw [if_pos both, if_pos (Bool.and_eq_true_iff.2 both), streamOfSettings, even_offset]
  · rw [if_neg both, if_neg (fun h => both (Bool.and_eq_true_iff.1 h))]

end Sys2Proof.Machine
end

section
/-! Bus accesses at their banks: O34, O35 and O37 (R92, R93, R95, R96, R100, R101, R104, R126, R165). -/

namespace Sys2Proof.Machine

/-! ## A grant, and what it was for carried out (R126) -/

section
variable {s : State} {p : Port} {r : BankRequest}

/-- A path that presents a request still presents it after the command. -/
theorem settle_port_of_path (h : (s.port p).path = some r) : s.settle.port p = s.port p := by
  rcases settle_port_cases s p with same | presents
  · exact same
  · rw [presents, present_of_path h]

theorem settle_modPort_of_path {f : PortState → PortState} (h : (f (s.port p)).path = some r) :
    (s.modPort p f).settle.port p = f (s.port p) := by
  rw [settle_port_of_path (by rw [port_modPort_same]; exact h), port_modPort_same]

theorem bankGrant_of_kind {w : PathRequest} (what : r.what = w) (grants : s.bankGrants p r) (body : State → State) :
    s.bankGrant p w body = body (s.occupied r.bank p) := by
  rw [← what]
  exact bankGrant_granted grants body

theorem bankDone_of_kind {w : PathRequest} (what : r.what = w) (high : s.resetLow = false) (path : (s.port p).path = some r)
    (current : (s.arbiter r.bank).current = some (.port p)) (body : State → State) :
    s.bankDone p w body =
      body ((s.modArbiter r.bank fun a => { a with current := none }).modPort p fun x => { x with path := none }) := by
  rw [← what]
  exact bankDone_done high path current body

theorem exec_readGrant {i : Instr} {stream : Bool}
    (h : (i = .windowReadGrant p .granted ∧ stream = false ∧ r.what = .windowRead) ∨
      (i = .streamReadGrant p .granted ∧ stream = true ∧ r.what = .streamRead))
    (grants : s.bankGrants p r) : exec i s = done ((s.occupied r.bank p).readGranted p stream) := by
  rcases h with ⟨rfl, rfl, what⟩ | ⟨rfl, rfl, what⟩
  · exact congrArg done (bankGrant_of_kind what grants fun t => t.readGranted p false)
  · exact congrArg done (bankGrant_of_kind what grants fun t => t.readGranted p true)

/-- The stream's pointer after an access of the stream, or of a window (R100, R101, R104). -/
theorem advanceStream_eq (s : State) (p : Port) (a : BusAccess) (stream : Bool) : (if stream = true then s.advanceStream p a else s) =
    s.modPort p fun x =>
      { x with
        stream := if stream = true ∧ a.rearmed = false then { x.stream with pointer := x.stream.pointer + 2 } else x.stream } := by
  unfold State.advanceStream
  by_cases moves : stream = true ∧ a.rearmed = false
  · simp [moves]
  · simp only [if_neg moves]
    refine Eq.trans ?_ (modPort_id s p rfl).symm
    rw [not_and, Bool.not_eq_false] at moves
    split
    next h => exact if_pos (moves h)
    next => rfl

theorem accessGranted_eq {a : BusAccess} (access : (s.port p).access = some a) (d : Word) :
    s.accessGranted p d = s.modPort p fun x => { x with access := some { a with phase := .granted d } } :=
  modPort_congr s p (by rw [access]; rfl)

/-! ## A read at its grant -/

section
variable {a : BusAccess} {v : View}

/-- The word at an offset, on the lanes of the port's byte order. -/
theorem wordAt_eq (s : State) (b : BufIx) (o : Nat) (order : ByteOrder) : s.wordAt b o order =
    if order = .little then (s.bufByte b (o + 1)).byte ++ (s.bufByte b o).byte
    else (s.bufByte b o).byte ++ (s.bufByte b (o + 1)).byte := by
  cases order <;> rfl

theorem wordError_iff (s : State) (b : BufIx) (o : Nat) :
    s.wordError b o = true ↔ (s.bufByte b o).error = true ∨ (s.bufByte b (o + 1)).error = true := Bool.or_eq_true_iff

/-- A read whose window still maps the buffer (R92, R96, R100, R104). -/
theorem readGranted_mapped (access : (s.port p).access = some a) (mapped : (s.port p).window a.window = .mapped v)
    (buffer : handleIx v.handle = a.buffer) (running : s.sessionState p ≠ .detached) (stream : Bool) : s.readGranted p stream =
      s.modPort p fun x =>
        { x with
          access := some { a with phase := .granted (s.wordAt a.buffer a.offset (s.port p).config.byteOrder) }
          stream := if stream = true ∧ a.rearmed = false then { x.stream with pointer := x.stream.pointer + 2 } else x.stream
          notes :=
            if (s.bufByte a.buffer a.offset).error = true ∨ (s.bufByte a.buffer (a.offset + 1)).error = true then
              x.notes.hand { kind := .dataError, subject := v.handle, value := BitVec.ofNat 16 a.offset }
            else x.notes } := by
  unfold State.readGranted
  simp only [access, mapped, buffer, if_true, advanceStream_eq, accessGranted_eq access, modPort_modPort]
  simp only [wordError_iff]
  by_cases error : (s.bufByte a.buffer a.offset).error = true ∨ (s.bufByte a.buffer (a.offset + 1)).error = true
  · simp only [if_pos error]
    rw [place_attached (by
      rw [State.sessionState, port_modPort_same]
      exact running), modPort_modPort]
  · simp only [if_neg error]

/-- A read whose window no longer maps the buffer (R92). -/
theorem readGranted_fault (access : (s.port p).access = some a)
    (other : ∀ v, (s.port p).window a.window = .mapped v → handleIx v.handle ≠ a.buffer) (stream : Bool) : s.readGranted p stream =
      s.modPort p fun x =>
        { x with
          access := some { a with phase := .granted 0xFFFF#16 }
          session := { x.session with windowFault := true } } := by
  have faults : (s.accessGranted p 0xFFFF#16).setWindowFault p = s.modPort p fun x =>
      { x with
        access := some { a with phase := .granted 0xFFFF#16 }
        session := { x.session with windowFault := true } } := by
    unfold State.setWindowFault State.modSession
    rw [accessGranted_eq access, modPort_modPort]
  unfold State.readGranted
  simp only [access]
  split
  next v mapped => rw [if_neg (other v mapped), faults]
  next => exact faults

end
end

/-- Settles O34: a read at its bank grant. -/
theorem readAtGrant : Obligations.ReadAtGrant := by
  unfold Obligations.ReadAtGrant
  intro p s r a stream i command grants access even odd word
  rw [exec_readGrant command grants]
  refine ⟨fun v mapped buffer running => congrArg done ?_, fun other => congrArg done ?_⟩
  · rw [readGranted_mapped (s := s.occupied r.bank p) access mapped buffer running, wordAt_eq]
    rfl
  · exact readGranted_fault (s := s.occupied r.bank p) access other stream

/-! ## A write at its grant -/

section
variable {s : State} {p : Port} {a : BusAccess} {d : Word} {l : Lanes}

theorem writeWord_alone (s : State) (b : BufIx) (o : Nat) (order : ByteOrder) (d : Word) (l : Lanes) :
    s.writeWord b o order d l = { s with array := (s.writeWord b o order d l).array } := by
  unfold State.writeWord
  split <;> split <;> rfl

theorem writeWord_port (s : State) (b : BufIx) (o : Nat) (order : ByteOrder) (d : Word) (l : Lanes) (q : Port) :
    (s.writeWord b o order d l).port q = s.port q := by
  rw [writeWord_alone]
  rfl

theorem bufByte_writeByte (s : State) (b c : BufIx) {o i : Nat} (ho : o < 512) (hi : i < 512) (x : Byte) :
    (s.writeByte b o x).bufByte c i = if c = b ∧ i = o then freshByte x else s.bufByte c i := by
  by_cases same : c = b ∧ i = o
  · obtain ⟨rfl, rfl⟩ := same
    rw [if_pos ⟨rfl, rfl⟩, State.bufByte_writeByte_same]
  · rw [if_neg same, State.bufByte_writeByte_other s x ho hi same]

theorem bufByte_writeByte_enabled (s : State) (b c : BufIx) {o i : Nat} (ho : o < 512) (hi : i < 512) (enabled : Bool) (x : Byte) :
    (if enabled then s.writeByte b o x else s).bufByte c i =
      if c = b ∧ i = o ∧ enabled = true then freshByte x else s.bufByte c i := by
  cases enabled with
  | false => simp
  | true => simp [bufByte_writeByte s b c ho hi]

/-- The array after a word is written at an even offset, lane by lane (R93 to R95). -/
theorem bufByte_writeWord (s : State) (b c : BufIx) {o i : Nat} (ho : o + 1 < 512) (hi : i < 512) (order : ByteOrder) (d : Word)
    (l : Lanes) : (s.writeWord b o order d l).bufByte c i =
      if c = b ∧ i = (if order = .little then o else o + 1) ∧ l.lo = true then freshByte (d.extractLsb' 0 8)
      else if c = b ∧ i = (if order = .little then o + 1 else o) ∧ l.hi = true then freshByte (d.extractLsb' 8 8)
      else s.bufByte c i := by
  have apart (x y : Bool) : ¬((c = b ∧ i = o + 1 ∧ x = true) ∧ c = b ∧ i = o ∧ y = true) := by omega
  unfold State.writeWord
  rw [bufByte_writeByte_enabled _ b c ho hi, bufByte_writeByte_enabled _ b c (Nat.lt_of_succ_lt ho) hi]
  cases order with
  | little =>
    by_cases odd : c = b ∧ i = o + 1 ∧ l.hi = true
    · have even : ¬(c = b ∧ i = o ∧ l.lo = true) := fun even => apart _ _ ⟨odd, even⟩
      exact (if_pos odd).trans ((if_neg even).trans (if_pos odd)).symm
    · exact (if_neg odd).trans (congrArg (ite _ _) (if_neg odd).symm)
  | big => rfl

theorem accessData_streamWrite (ha : (s.port p).access = some a) (hk : a.kind = .streamWrite d l) : s.accessData p = (d, l) := by
  obtain ⟨kind, window, buffer, offset, rearmed, phase⟩ := a
  obtain rfl : kind = .streamWrite d l := hk
  unfold State.accessData
  rw [ha]

theorem exec_writeGrant {i : Instr} {stream : Bool} {r : BankRequest}
    (h : (i = .windowWriteGrant p .granted ∧ stream = false ∧ r.what = .windowWrite ∧ a.kind = .windowWrite d l) ∨
      (i = .streamWriteGrant p .granted ∧ stream = true ∧ r.what = .streamWrite ∧ a.kind = .streamWrite d l))
    (grants : s.bankGrants p r) (access : (s.port p).access = some a) :
    exec i s = done ((s.occupied r.bank p).writeGranted p stream d l) := by
  rcases h with ⟨rfl, rfl, what, kind⟩ | ⟨rfl, rfl, what, kind⟩
  · exact exec_windowWriteGrant_granted grants what access kind
  · refine congrArg done ((bankGrant_of_kind what grants
      fun t => t.writeGranted p true (s.accessData p).1 (s.accessData p).2).trans ?_)
    rw [accessData_streamWrite access kind]

/-- The port of a write that has been written: the access is finished, and a stream's pointer advances (R101, R104, R165). -/
def PortState.writeAccepted (x : PortState) (stream : Bool) (a : BusAccess) : PortState :=
  { x with
    access := none
    stream := if stream = true ∧ a.rearmed = false then { x.stream with pointer := x.stream.pointer + 2 } else x.stream }

/-- A write whose window still maps the buffer in mode RW (R93, R101, R104). -/
theorem writeGranted_mapped {v : View} (access : (s.port p).access = some a) (mapped : (s.port p).window a.window = .mapped v)
    (buffer : handleIx v.handle = a.buffer) (mode : v.mode = .rw) (stream : Bool) : s.writeGranted p stream d l =
      (s.writeWord a.buffer a.offset (s.port p).config.byteOrder d l).modPort p fun x => x.writeAccepted stream a := by
  unfold State.writeGranted State.acceptWrite
  simp only [access, mapped, buffer, mode, decide_true, Bool.and_self, if_true, advanceStream_eq, modPort_modPort]
  rfl

/-- A write whose window no longer maps the buffer in mode RW (R93, R101). -/
theorem writeGranted_fault (access : (s.port p).access = some a)
    (other : ∀ v, (s.port p).window a.window = .mapped v → handleIx v.handle ≠ a.buffer ∨ v.mode = .ro) (stream : Bool) :
    s.writeGranted p stream d l =
      s.modPort p fun x => { x with access := none, session := { x.session with windowFault := true } } := by
  have faults : (s.acceptWrite p).setWindowFault p =
      s.modPort p fun x => { x with access := none, session := { x.session with windowFault := true } } := by
    unfold State.acceptWrite State.setWindowFault State.modSession
    rw [modPort_modPort]
  unfold State.writeGranted
  simp only [access]
  split
  next v mapped =>
    have drops : ¬(decide (handleIx v.handle = a.buffer) && decide (v.mode = .rw)) = true := by
      rcases other v mapped with h | h <;> simp [h]
    rw [if_neg drops, faults]
  next => exact faults

end

/-- Settles O35: a write at its bank grant. -/
theorem writeAtGrant : Obligations.WriteAtGrant := by
  unfold Obligations.WriteAtGrant
  intro p s r a d l stream i command grants access _ _ inside order low high lowAt highAt
  rw [exec_writeGrant command grants access]
  refine ⟨fun v mapped buffer mode => ?_, fun other => congrArg done ?_⟩
  · rw [writeGranted_mapped (s := s.occupied r.bank p) access mapped buffer mode, port_occupied]
    have presents : (s.port p).path = some r := grants.1
    have room : a.offset + 1 < 512 := by omega
    have port := settle_modPort_of_path (f := fun x => x.writeAccepted stream a) ((congrArg PortState.path
      (writeWord_port (s.occupied r.bank p) a.buffer a.offset (s.port p).config.byteOrder d l p)).trans presents)
    rw [writeWord_port, port_occupied] at port
    refine ⟨_, rfl, fun b o ho => ?_, ?_, ?_, ?_, ?_, ?_, ?_, ?_, ?_⟩
    · rw [settle_bufByte]
      exact bufByte_writeWord (s.occupied r.bank p) a.buffer b room ho order d l
    · rw [port]
      rfl
    · rw [State.pwait, port]
      rfl
    · rw [port]
      rfl
    · rw [settle_arbiter, arbiter_modPort, writeWord_alone]
      exact (arbiter_modArbiter s r.bank r.bank fun _ => { lastPort := p, current := some (.port p) }).trans (if_pos rfl)
    · rw [port]
      exact presents
    · rw [settle_buffers, modPort_buffers, writeWord_alone]
      rfl
    · rw [port]
      rfl
    · rw [port]
      rfl
  · exact writeGranted_fault (s := s.occupied r.bank p) access other stream

/-! ## An access carried out -/

theorem finishAccess_granted {s : State} {p : Port} {a : BusAccess} {d : Word} (access : (s.port p).access = some a)
    (phase : a.phase = .granted d) : s.finishAccess p =
      s.modPort p fun x => { x with access := none, dataBus := if a.kind.answers then d else x.dataBus } := by
  obtain ⟨kind, window, buffer, offset, rearmed, _⟩ := a
  obtain rfl := phase
  exact modPort_congr s p (by rw [access])

/-- Settles O37: a granted access that has been carried out. -/
theorem accessCarriedOut : Obligations.AccessCarriedOut := by
  unfold Obligations.AccessCarriedOut
  refine ⟨fun p s r a answer strobe i command high path current access phase => ?_, fun p s r i command high path current => ?_⟩
  · have ends : exec i s = done (((s.modArbiter r.bank fun x => { x with current := none }).modPort p fun x =>
        { x with path := none }).finishAccess p) := by
      rcases command with ⟨rfl, what, _⟩ | ⟨rfl, what, _⟩
      · exact congrArg done (bankDone_of_kind what high path current fun t => t.finishAccess p)
      · exact congrArg done (bankDone_of_kind what high path current fun t => t.finishAccess p)
    have answers : a.kind.answers = decide (strobe = .held) := by
      rcases command with ⟨_, _, kind⟩ | ⟨_, _, kind⟩ <;> rw [kind] <;> cases strobe <;> rfl
    rw [ends, finishAccess_granted (by rw [port_modPort_same]; exact access) phase, modPort_modPort, answers]
    simp only [decide_eq_true_eq]
    rfl
  · rcases command with ⟨rfl, what⟩ | ⟨rfl, what⟩
    · exact congrArg done (bankDone_of_kind what high path current id)
    · exact congrArg done (bankDone_of_kind what high path current id)

end Sys2Proof.Machine
end

section
/-! Bulk operations: O38 to O41 (R106 to R114). -/

namespace Sys2Proof.Machine

/-! ## Start steps (R106 to R109) -/

/-- The record a start step sets up takes its buffers' counts up by one (R108). -/
def State.countRaised (s : State) (b : BufIx) : State := s.modBuf b fun r => { r with bulkCount := r.bulkCount + 1 }

theorem startBulk_single {m : Bulk} (h : m.source = none) (s : State) (p : Port) :
    s.startBulk p m = (s.countRaised m.destination.buffer).modEngine p fun e => { e with bulk := some m } := by
  unfold State.startBulk Bulk.touches
  rw [h]
  rfl

theorem startBulk_pair {m : Bulk} {r : BulkRange} (h : m.source = some r) (s : State) (p : Port) :
    s.startBulk p m = (if r.buffer = m.destination.buffer then s.countRaised m.destination.buffer
      else (s.countRaised m.destination.buffer).countRaised r.buffer).modEngine p fun e => { e with bulk := some m } := by
  unfold State.startBulk Bulk.touches
  rw [h]
  simp only
  split <;> rfl

section
variable {s : State} {p : Port} (good : s.checkHandle (s.operand p 0) = none)
include good

theorem fillRefusal_none (held : (s.buf (handleIx (s.operand p 0))).heldBy p = true)
    (fits : rangeFits (s.operand p 1).toNat (s.operand p 2).toNat = true) : s.fillRefusal p = none := by
  unfold State.fillRefusal
  simp [good, held, fits]

theorem copyRefusal_none (good' : s.checkHandle (s.operand p 2) = none)
    (source : (s.buf (handleIx (s.operand p 0))).roleOf p = true)
    (destination : (s.buf (handleIx (s.operand p 2))).heldBy p = true)
    (first : rangeFits (s.operand p 1).toNat (s.operand p 4).toNat = true)
    (second : rangeFits (s.operand p 3).toNat (s.operand p 4).toNat = true) : s.copyRefusal p = none := by
  have handles : s.checkHandles (s.operand p 0) (s.operand p 2) = none := (checkHandles_of_destination good).trans good'
  unfold State.copyRefusal
  simp [handles, source, destination, first, second]

end

section
variable {s : State} {p : Port}

theorem finish_fill_of_passed (h : s.fillRefusal p = none) : ((Work.start s).fill p).finish = s.startBulk p (s.fillRecord p) := by
  unfold Work.fill
  simp only [start_state, h]
  exact finish_of_owed_nil rfl

theorem finish_copy_of_passed (h : s.copyRefusal p = none) : ((Work.start s).copy p).finish = s.startBulk p (s.copyRecord p) := by
  unfold Work.copy
  simp only [start_state, h]
  exact finish_of_owed_nil rfl

theorem exec_zeroFillStart_granted (h : s.grants (.re p) .zeroFillStart = true) :
    exec (.zeroFillStart p) s = .next (((Work.start (s.served (.re p))).zeroFillStart p).finish).settle :=
  congrArg done (tableOp_granted h _)

theorem finish_zeroFillStart_stands {h : Word} (claimed : (s.port p).engine.claimed = some h) (stands : s.claimedStands p h = true) :
    ((Work.start s).zeroFillStart p).finish = s.startBulk p (s.zeroRecord h) := by
  unfold Work.zeroFillStart
  simp only [start_state, claimed, stands, if_true]
  exact finish_of_owed_nil rfl

theorem finish_zeroFillStart_gone {h : Word} (claimed : (s.port p).engine.claimed = some h) (gone : s.claimedStands p h = false) :
    ((Work.start s).zeroFillStart p).finish = s.modPort p fun x => x.completes .aborted (res1 h) true := by
  unfold Work.zeroFillStart
  simp only [start_state, claimed, gone]
  exact finish_complete rfl ..

theorem claimedStands_iff (s : State) (p : Port) (h : Word) :
    s.claimedStands p h = true ↔ (s.buf (handleIx h)).heldBy p = true ∧ (s.buf (handleIx h)).generation = handleGen h := by
  simp [State.claimedStands]

end

theorem evenByte_eq (o : ByteOrder) (w : Word) : evenByte o w = if o = .little then w.extractLsb' 0 8 else w.extractLsb' 8 8 := by
  cases o <;> rfl

theorem oddByte_eq (o : ByteOrder) (w : Word) : oddByte o w = if o = .little then w.extractLsb' 8 8 else w.extractLsb' 0 8 := by
  cases o <;> rfl

/-- Settles O38: the start steps whose checks pass, and the zero fill's. -/
theorem bulkStarts : Obligations.BulkStarts := by
  unfold Obligations.BulkStarts
  refine ⟨fun p s good => ⟨fun granted held fits => ?_, fun granted good' source destination first second => ?_⟩,
    fun p s h granted claimed => ⟨fun held current => ?_, fun gone => ?_⟩⟩
  · have passes := fillRefusal_none good held ((rangeFits_iff _ _).2 fits)
    rw [exec_fill_granted granted, finish_fill_of_passed (s := s.served (.re p)) passes, startBulk_single rfl, State.fillRecord,
      evenByte_eq, oddByte_eq]
    rfl
  · have passes := copyRefusal_none good good' source destination ((rangeFits_iff _ _).2 first) ((rangeFits_iff _ _).2 second)
    rw [exec_copy_granted granted, finish_copy_of_passed (s := s.served (.re p)) passes, startBulk_pair rfl]
    rfl
  · rw [exec_zeroFillStart_granted granted, finish_zeroFillStart_stands (s := s.served (.re p)) claimed
      ((claimedStands_iff s p h).2 ⟨held, current⟩), startBulk_single rfl]
    rfl
  · have stale : s.claimedStands p h = false := by
      refine Bool.eq_false_iff.2 fun stands => ?_
      obtain ⟨held, current⟩ := (claimedStands_iff s p h).1 stands
      rcases gone with free | other
      · rw [held] at free
        exact Bool.noConfusion free
      · exact other current
    rw [exec_zeroFillStart_granted granted, finish_zeroFillStart_gone (s := s.served (.re p)) claimed stale]
    rfl

/-! ## A burst's extent (R110) -/

/-- The bytes left in the row of a range's buffer, in the burst's direction. -/
def Bulk.rowLeft (m : Bulk) (r : BulkRange) : Nat :=
  match m.direction with
  | .ascending => rowLeftUp (r.offset + m.bytesDone)
  | .descending => rowLeftDown (r.offset + (m.count - m.bytesDone))

/-- The range belongs to the move. -/
def Bulk.touched (m : Bulk) (r : BulkRange) : Prop := r = m.destination ∨ m.source = some r

theorem burstLength_none {m : Bulk} (h : m.source = none) :
    m.burstLength = min 32 (min (m.count - m.bytesDone) (m.rowLeft m.destination)) := by
  unfold Bulk.burstLength
  rw [h]
  rfl

theorem burstLength_some {m : Bulk} {r : BulkRange} (h : m.source = some r) :
    m.burstLength = min (min 32 (min (m.count - m.bytesDone) (m.rowLeft m.destination))) (m.rowLeft r) := by
  unfold Bulk.burstLength
  rw [h]
  rfl

section
variable (m : Bulk)

theorem rowLeft_pos (r : BulkRange) : 1 ≤ m.rowLeft r := by
  unfold Bulk.rowLeft rowLeftUp rowLeftDown
  cases m.direction <;> simp only <;> omega

theorem burstLength_le : m.burstLength ≤ 32 ∧ m.burstLength ≤ m.count - m.bytesDone := by
  cases h : m.source with
  | none => rw [burstLength_none h]; omega
  | some r => rw [burstLength_some h]; omega

variable {m}

theorem burstLength_le_rowLeft {r : BulkRange} (h : m.touched r) : m.burstLength ≤ m.rowLeft r := by
  rcases h with rfl | source
  · cases h : m.source with
    | none => rw [burstLength_none h]; omega
    | some r => rw [burstLength_some h]; omega
  · rw [burstLength_some source]
    omega

/-- The length is the least of its bounds. -/
theorem burstLength_cases (m : Bulk) :
    m.burstLength = 32 ∨ m.burstLength = m.count - m.bytesDone ∨ ∃ r, m.touched r ∧ m.burstLength = m.rowLeft r := by
  cases h : m.source with
  | none =>
    have length := burstLength_none h
    by_cases row : m.burstLength = m.rowLeft m.destination
    · exact .inr (.inr ⟨_, .inl rfl, row⟩)
    · omega
  | some r =>
    have length := burstLength_some h
    by_cases row : m.burstLength = m.rowLeft m.destination
    · exact .inr (.inr ⟨_, .inl rfl, row⟩)
    · by_cases row' : m.burstLength = m.rowLeft r
      · exact .inr (.inr ⟨_, .inr h, row'⟩)
      · omega

/-- Where a burst lies in a range: up from the bytes done, or down from the bytes left. -/
theorem burstStart_eq (m : Bulk) (r : BulkRange) : m.burstStart r =
    match m.direction with
    | .ascending => r.offset + m.bytesDone
    | .descending => r.offset + (m.count - m.bytesDone) - m.burstLength := rfl

end

/-- Settles O39: the extent of a burst. -/
theorem burstExtent : Obligations.BurstExtent := by
  unfold Obligations.BurstExtent
  intro m more inside inside' touched
  obtain ⟨short, left⟩ := burstLength_le m
  have room : ∀ r, touched r → r.offset + m.count ≤ 512 := by
    rintro r (rfl | source)
    · exact inside
    · exact inside' r source
  have some : 1 ≤ m.burstLength := by
    rcases burstLength_cases m with h | h | ⟨r, _, h⟩
    · omega
    · omega
    · rw [h]
      exact rowLeft_pos m r
  refine ⟨some, short, by omega, ?_, fun done count even => ?_, fun r h => ?_⟩
  · rcases burstLength_cases m with h | h | ⟨r, touches, h⟩
    · exact .inl h
    · exact .inr (.inl (by omega))
    · refine .inr (.inr ⟨r, touches, ?_⟩)
      have start := burstStart_eq m r
      unfold Bulk.rowLeft rowLeftUp rowLeftDown at h
      cases direction : m.direction <;> rw [direction] at h start <;> simp only at h start
      · exact .inl ⟨rfl, by omega⟩
      · exact .inr ⟨rfl, by omega⟩
  · have length : m.burstLength % 2 = 0 := by
      rcases burstLength_cases m with h | h | ⟨r, touches, h⟩
      · omega
      · omega
      · have := even r touches
        unfold Bulk.rowLeft rowLeftUp rowLeftDown at h
        cases direction : m.direction <;> rw [direction] at h <;> simp only at h <;> omega
    exact ⟨length, by omega⟩
  · have start := burstStart_eq m r
    have row := burstLength_le_rowLeft h
    have fits := room r h
    unfold Bulk.rowLeft rowLeftUp rowLeftDown at row
    cases direction : m.direction <;> rw [direction] at row start <;> simp only at row start
    · exact ⟨by omega, by omega, by omega, fun _ => start, nofun⟩
    · exact ⟨by omega, by omega, by omega, nofun, fun _ => by omega⟩

end Sys2Proof.Machine
end

section
/-! Bursts at their banks, and the end step: O40, O41 and O42 (R111 to R117, R143). -/

namespace Sys2Proof.Machine

/-! ## A run of bytes in the array -/

section
variable {s : State}

theorem writeRun_alone (s : State) (b : BufIx) (o : Nat) (xs : List Byte) :
    s.writeRun b o xs = { s with array := (s.writeRun b o xs).array } := by
  induction xs generalizing s o with
  | nil => rfl
  | cons x xs ih =>
    rw [State.writeRun, ih]
    rfl

theorem writeRun_port (s : State) (b : BufIx) (o : Nat) (xs : List Byte) (q : Port) : (s.writeRun b o xs).port q = s.port q := by
  rw [writeRun_alone]
  rfl

theorem bufByte_writeRun (s : State) (b c : BufIx) {o i : Nat} {xs : List Byte} (fits : o + xs.length ≤ 512) (hi : i < 512) :
    (s.writeRun b o xs).bufByte c i =
      if c = b ∧ o ≤ i ∧ i < o + xs.length then freshByte (xs.getD (i - o) 0) else s.bufByte c i := by
  by_cases inside : c = b ∧ o ≤ i ∧ i < o + xs.length
  · rw [if_pos inside]
    obtain ⟨rfl, low, high⟩ := inside
    have within : i - o < xs.length := by omega
    have at' := State.bufByte_writeRun_same s c o xs fits (i - o) within
    rw [show o + (i - o) = i by omega] at at'
    rw [at', List.getD_eq_getElem _ _ within]
  · rw [if_neg inside]
    exact State.bufByte_writeRun_other s xs fits hi inside

end

/-! ## A burst's effect on its record (R111 to R115) -/

/-- A mover's record after a burst has been written. -/
theorem wrote_eq (m : Bulk) (n : Nat) : m.wrote n =
    { m with
      bytesDone := m.bytesDone + n, readRun := none
      phase := if m.count ≤ m.bytesDone + n then .stopped .ok else m.phase } := by
  unfold Bulk.wrote
  simp only
  split <;> rfl

theorem patternRun_length (m : Bulk) (o n : Nat) : (m.patternRun o n).length = n := by simp [Bulk.patternRun]

theorem patternRun_getD (m : Bulk) (o : Nat) {i n : Nat} (h : i < n) :
    (m.patternRun o n).getD i 0 = if (o + i) % 2 = 0 then m.patternEven else m.patternOdd := by
  unfold Bulk.patternRun
  rw [List.getD_eq_getElem _ _ (by simpa using h)]
  simp

section
variable {s : State} {p : Port} {m : Bulk}

theorem modBulk_eq (bulk : (s.port p).engine.bulk = some m) (f : Bulk → Bulk) :
    s.modBulk p f = s.modEngine p fun e => { e with bulk := some (f m) } := by
  unfold State.modBulk State.modEngine
  refine modPort_congr s p ?_
  dsimp only
  rw [bulk]
  rfl

section
variable (bulk : (s.port p).engine.bulk = some m)
include bulk

theorem fillGranted_marked (abort : m.abort = true) :
    s.fillGranted p = s.modEngine p fun e => { e with bulk := some (m.stop .aborted) } := by
  unfold State.fillGranted
  simp only [bulk, abort, if_true]
  exact modBulk_eq bulk _

theorem fillGranted_writes (abort : m.abort = false) : s.fillGranted p =
    (s.writeRun m.destination.buffer (m.burstStart m.destination)
      (m.patternRun (m.burstStart m.destination) m.burstLength)).modEngine p fun e =>
        { e with bulk := some (m.wrote m.burstLength) } := by
  unfold State.fillGranted
  simp only [bulk, abort]
  exact modBulk_eq ((congrArg (fun x => x.engine.bulk) (writeRun_port ..)).trans bulk) _

theorem copyWriteGranted_marked (abort : m.abort = true) :
    s.copyWriteGranted p = s.modEngine p fun e => { e with bulk := some (m.stop .aborted) } := by
  unfold State.copyWriteGranted
  simp only [bulk, abort, if_true]
  exact modBulk_eq bulk _

theorem copyWriteGranted_writes {bytes : List Byte} (abort : m.abort = false) (run : m.readRun = some bytes) : s.copyWriteGranted p =
    (s.writeRun m.destination.buffer (m.burstStart m.destination) bytes).modEngine p fun e =>
      { e with bulk := some (m.wrote m.burstLength) } := by
  unfold State.copyWriteGranted
  simp only [bulk, abort, run]
  exact modBulk_eq ((congrArg (fun x => x.engine.bulk) (writeRun_port ..)).trans bulk) _

theorem copyReadGranted_marked (abort : m.abort = true) :
    s.copyReadGranted p = s.modEngine p fun e => { e with bulk := some (m.stop .aborted) } := by
  unfold State.copyReadGranted
  simp only [bulk, abort, if_true]
  exact modBulk_eq bulk _

variable {src : BulkRange} (source : m.source = some src) (abort : m.abort = false)
include source abort

/-- A COPY burst's read that finds its mark clear (R112). -/
theorem copyReadGranted_unmarked : s.copyReadGranted p =
    if (s.readRun src.buffer (m.burstStart src) m.burstLength).any Stored.error then s.modBulk p fun m => m.stop .dataError
    else s.modBulk p fun x =>
      { x with readRun := some ((s.readRun src.buffer (m.burstStart src) m.burstLength).map Stored.byte) } := by
  unfold State.copyReadGranted
  simp only [bulk, abort, source]
  rfl

theorem copyReadGranted_error (error : (s.readRun src.buffer (m.burstStart src) m.burstLength).any Stored.error = true) :
    s.copyReadGranted p = s.modEngine p fun e => { e with bulk := some (m.stop .dataError) } := by
  rw [copyReadGranted_unmarked bulk source abort, if_pos error]
  exact modBulk_eq bulk _

theorem copyReadGranted_reads (clean : (s.readRun src.buffer (m.burstStart src) m.burstLength).any Stored.error = false) :
    s.copyReadGranted p = s.modEngine p fun e =>
      { e with
        bulk := some { m with
          readRun := some ((s.readRun src.buffer (m.burstStart src) m.burstLength).map Stored.byte) } } := by
  rw [copyReadGranted_unmarked bulk source abort, if_neg (by rw [clean]; exact Bool.false_ne_true)]
  exact modBulk_eq bulk _

end

/-! ## The commands at their banks -/

variable {r : BankRequest}

theorem exec_fillBurst_granted (grants : s.bankGrants p r) (what : r.what = .fillBurst) :
    exec (.fillBurst p .granted) s = .next ((s.occupied r.bank p).fillGranted p).settle :=
  congrArg done (bankGrant_of_kind what grants fun t => t.fillGranted p)

theorem exec_copyBurstRead_granted (grants : s.bankGrants p r) (what : r.what = .copyRead) :
    exec (.copyBurstRead p .granted) s = .next ((s.occupied r.bank p).copyReadGranted p).settle :=
  congrArg done (bankGrant_of_kind what grants fun t => t.copyReadGranted p)

theorem exec_copyBurstWrite_granted (grants : s.bankGrants p r) (what : r.what = .copyWrite) :
    exec (.copyBurstWrite p .granted) s = .next ((s.occupied r.bank p).copyWriteGranted p).settle :=
  congrArg done (bankGrant_of_kind what grants fun t => t.copyWriteGranted p)

/-- A burst written at its grant: the run of bytes in the array, the mover's record, and the bank occupied; nothing of the pool. -/
theorem burst_written (presents : (s.port p).path = some r) {xs : List Byte} (n : Nat) (length : xs.length = n)
    (fits : m.burstStart m.destination + n ≤ 512) {t : State} (ht : t =
      (((s.occupied r.bank p).writeRun m.destination.buffer (m.burstStart m.destination) xs).modEngine p fun e =>
        { e with bulk := some (m.wrote n) }).settle) :
    (∀ (b : BufIx) (o : Nat), o < 512 → t.bufByte b o =
      if b = m.destination.buffer ∧ m.burstStart m.destination ≤ o ∧ o < m.burstStart m.destination + n then
        freshByte (xs.getD (o - m.burstStart m.destination) 0)
      else s.bufByte b o) ∧
    (t.port p).engine.bulk = some { m with
      bytesDone := m.bytesDone + n, readRun := none
      phase := if m.count ≤ m.bytesDone + n then .stopped .ok else m.phase } ∧
    t.arbiter r.bank = { lastPort := p, current := some (.port p) } ∧ t.buffers = s.buffers ∧ t.channels = s.channels := by
  subst ht
  subst length
  refine ⟨fun b o ho => ?_, ?_, ?_, ?_, ?_⟩
  · rw [settle_bufByte]
    exact bufByte_writeRun (s.occupied r.bank p) m.destination.buffer b fits ho
  · have path : ((((s.occupied r.bank p).writeRun m.destination.buffer (m.burstStart m.destination) xs).port p).path) = some r := by
      rw [writeRun_port]
      exact presents
    rw [State.modEngine, settle_modPort_of_path path, wrote_eq]
  · rw [settle_arbiter, State.modEngine, arbiter_modPort, writeRun_alone]
    exact (arbiter_modArbiter s r.bank r.bank fun _ => { lastPort := p, current := some (.port p) }).trans (if_pos rfl)
  · rw [settle_buffers, State.modEngine, modPort_buffers, writeRun_alone]
    rfl
  · rw [settle_channels, State.modEngine, modPort_channels, writeRun_alone]
    rfl

end

/-- Settles O40: a FILL or zero-fill burst. -/
theorem fillBurst : Obligations.FillBurst := by
  unfold Obligations.FillBurst
  intro p s r m bulk what
  refine ⟨fun grants abort => ?_, fun grants abort _ fits => ?_, fun high path current => ?_⟩
  · rw [exec_fillBurst_granted grants what, fillGranted_marked (s := s.occupied r.bank p) bulk abort]
    rfl
  · obtain ⟨bytes, record, bank, bufs, chans⟩ := burst_written (s := s) (m := m) grants.1 m.burstLength
      (patternRun_length m (m.burstStart m.destination) m.burstLength) fits rfl
    refine ⟨_, (exec_fillBurst_granted grants what).trans (congrArg done
      (fillGranted_writes (s := s.occupied r.bank p) bulk abort)), fun b o ho => ?_, record, bank, bufs, chans⟩
    rw [bytes b o ho]
    refine if_ctx_congr Iff.rfl (fun ⟨_, low, high⟩ => ?_) fun _ => rfl
    rw [patternRun_getD m _ (by omega), Nat.add_sub_cancel' low]
  · exact congrArg done (bankDone_of_kind what high path current id)

theorem readRun_eq (s : State) (b : BufIx) (o n : Nat) : s.readRun b o n = (List.range n).map fun i => s.bufByte b (o + i) := rfl

/-- Settles O41: the two grants of a COPY burst. -/
theorem copyBurst : Obligations.CopyBurst := by
  unfold Obligations.CopyBurst
  intro p s r m src bulk source stopped run
  have bytesRead : (s.occupied r.bank p).readRun src.buffer (m.burstStart src) m.burstLength = run := rfl
  refine ⟨fun grants what => ⟨fun abort => ?_, fun abort error => ?_, fun abort clean => ?_⟩,
    fun grants what => ⟨fun abort => ?_, fun bytes abort read length _ fits => ?_⟩, fun high path current => ⟨fun what => ?_, fun what => ?_⟩⟩
  · rw [exec_copyBurstRead_granted grants what, copyReadGranted_marked (s := s.occupied r.bank p) bulk abort]
    rfl
  · rw [exec_copyBurstRead_granted grants what, copyReadGranted_error (s := s.occupied r.bank p) bulk source abort
      (by rw [bytesRead]; exact List.any_eq_true.2 error)]
    rfl
  · rw [exec_copyBurstRead_granted grants what, copyReadGranted_reads (s := s.occupied r.bank p) bulk source abort
      (by rw [bytesRead]; exact List.any_eq_false.2 fun c h => by rw [clean c h]; exact Bool.false_ne_true)]
    rfl
  · rw [exec_copyBurstWrite_granted grants what, copyWriteGranted_marked (s := s.occupied r.bank p) bulk abort]
    rfl
  · refine ⟨_, (exec_copyBurstWrite_granted grants what).trans (congrArg done
      (copyWriteGranted_writes (s := s.occupied r.bank p) bulk abort read)), ?_⟩
    exact burst_written (s := s) (m := m) grants.1 m.burstLength length fits rfl
  · exact congrArg done (bankDone_of_kind what high path current id)
  · exact congrArg done (bankDone_of_kind what high path current id)

/-! ## The end step (R115, R117, R143) -/

section
variable {s : State}

theorem finish_foldl_enterFree (l : List BufIx) (w : Work) : (l.foldl Work.enterFree w).finish = l.foldl State.entersFree w.finish := by
  induction l generalizing w with
  | nil => rfl
  | cons b l ih => rw [List.foldl_cons, List.foldl_cons, ih, finish_enterFree]

theorem foldl_modBuf_setFreeDraws (l : List BufIx) (f : BufRec → BufRec) (s : State) (n : Nat) :
    (l.foldl (fun t b => t.modBuf b f) s).setFreeDraws n = l.foldl (fun t b => t.modBuf b f) (s.setFreeDraws n) := by
  induction l generalizing s with
  | nil => rfl
  | cons b l ih => exact ih _

theorem foldl_modBuf_freeDraws (l : List BufIx) (f : BufRec → BufRec) (s : State) :
    (l.foldl (fun t b => t.modBuf b f) s).freeDraws = s.freeDraws := by
  induction l generalizing s with
  | nil => rfl
  | cons b l ih => exact ih _

/-- The buffers of which an end step takes the last count. -/
def State.lastCounts (s : State) (m : Bulk) : List BufIx :=
  m.touches.filter fun b => (s.buf b).state = .draining ∧ (s.buf b).bulkCount = 1

/-- The drained buffers are those, in one of their two orders. -/
theorem drained_eq (s : State) (m : Bulk) : s.drained m = s.lastCounts m ∨ s.drained m = (s.lastCounts m).reverse := by
  have filter : (m.touches.filter fun b => (s.buf b).state == .draining && (s.buf b).bulkCount == 1) = s.lastCounts m :=
    List.filter_congr fun b _ => by simp [Bool.beq_eq_decide_eq]
  unfold State.drained
  rw [filter]
  split
  next d r pair =>
    split
    · exact .inr (by rw [pair]; rfl)
    · exact .inl pair.symm
  next => exact .inl rfl

theorem drained_length (s : State) (m : Bulk) : (s.drained m).length = (s.lastCounts m).length := by
  rcases drained_eq s m with h | h <;> rw [h]
  exact List.length_reverse

/-- The state in which an end step's buffers enter FREE: the counts lowered and the record gone. -/
def State.countsLowered (s : State) (p : Port) (m : Bulk) : State :=
  (m.touches.foldl (fun t b => t.modBuf b fun r => { r with bulkCount := r.bulkCount - 1 })
    (s.setFreeDraws (if (s.lastCounts m).length = 2 then s.freeDraws + 1 else s.freeDraws))).modEngine p fun e =>
      { e with bulk := none }

theorem finish_endBulk (s : State) (p : Port) (m : Bulk) :
    ((Work.start s).endBulk p m).finish = (s.drained m).foldl State.entersFree (s.countsLowered p m) := by
  unfold Work.endBulk
  simp only [start_state]
  rw [finish_foldl_enterFree, finish_of_owed_nil rfl]
  unfold State.countsLowered
  simp only [map_state, start_state, foldl_modBuf_freeDraws, foldl_modBuf_setFreeDraws, drained_length]

variable {p : Port} {m : Bulk}

theorem exec_endStep_engine (h : s.grants (.re p) .endStep = true) :
    exec (.endStep p) s = .next (((Work.start (s.served (.re p))).endStepEngine p).finish).settle := by
  have other : s.grants (.tu p) .endStep = false := by
    unfold State.grants at h ⊢
    rw [Bool.and_eq_true_iff, beq_iff_eq] at h
    rw [h.1]
    rfl
  exact congrArg done ((if_neg (by rw [other]; exact Bool.false_ne_true)).trans (tableOp_granted h _))

theorem exec_endStep_teardown (h : s.grants (.tu p) .endStep = true) :
    exec (.endStep p) s = .next (((Work.start (s.served (.tu p))).endStepTeardown p).finish).settle :=
  congrArg done ((if_pos h).trans (tableOp_granted h _))

theorem finish_endStepEngine (bulk : (s.port p).engine.bulk = some m) : ((Work.start s).endStepEngine p).finish =
    ((s.drained m).foldl State.entersFree (s.countsLowered p m)).modPort p fun x =>
      x.completes m.outcome.code (bulkWords (s.port p).engine m) true := by
  unfold Work.endStepEngine
  simp only [start_state, bulk]
  rw [finish_completes, finish_endBulk]

theorem finish_endStepTeardown (bulk : (s.port p).engine.bulk = some m) : ((Work.start s).endStepTeardown p).finish =
    ((s.drained m).foldl State.entersFree (s.countsLowered p m)).modPort p fun x =>
      { x with teardown := { x.teardown with endOwed := false } } := by
  unfold Work.endStepTeardown
  simp only [start_state, bulk]
  have apart : NotesApart fun x => { x with teardown := { x.teardown with endOwed := false } } := ⟨fun _ _ => rfl, fun _ => rfl⟩
  refine (finish_map fun t q r => place_modPort apart t p q r).trans ?_
  rw [finish_endBulk]

end

theorem outcome_of_stopped {m : Bulk} {o : BulkOutcome} (h : m.phase = .stopped o) : m.outcome = o := by
  unfold Bulk.outcome
  rw [h]

theorem bulkWords_eq (e : Engine) (m : Bulk) : bulkWords e m =
    if m.kind = .zeroFill then res4 (e.claimed.getD 0) 0 0 0 else res4 (BitVec.ofNat 16 m.bytesDone) 0 0 0 := by
  unfold bulkWords
  cases m.kind <;> rfl

/-- Settles O42: the end step, of the engine and of the Teardown Unit. -/
theorem endStep : Obligations.EndStep := by
  unfold Obligations.EndStep
  intro p s m o bulk phase code words last lowered ended inSomeOrder
  have result : m.outcome.code = code := by
    rw [outcome_of_stopped phase]
    cases o <;> rfl
  have orders : s.drained m = last ∨ s.drained m = last.reverse := drained_eq s m
  refine ⟨fun granted => orders.imp (fun order => ?_) fun order => ?_, fun granted => orders.imp (fun order => ?_) fun order => ?_⟩
  · rw [exec_endStep_engine granted, finish_endStepEngine (s := s.served (.re p)) bulk, result, bulkWords_eq, ← order]
    rfl
  · rw [exec_endStep_engine granted, finish_endStepEngine (s := s.served (.re p)) bulk, result, bulkWords_eq, ← order]
    rfl
  · rw [exec_endStep_teardown granted, finish_endStepTeardown (s := s.served (.tu p)) bulk, ← order]
    rfl
  · rw [exec_endStep_teardown granted, finish_endStepTeardown (s := s.served (.tu p)) bulk, ← order]
    rfl

end Sys2Proof.Machine
end

section
/-! Sessions and the port reset input: O43 and O44 (R72, R123, R132 to R137). -/

namespace Sys2Proof.Machine

/-! ## The session requests -/

section
variable {s : State} {p : Port}

/-- Whom a port's session change concerns: the other attached ports, which its own state does not change. -/
theorem attachedOthers_modPort (s : State) (p : Port) (f : PortState → PortState) :
    (s.modPort p f).attachedOthers p = allPorts.filter fun q => q != p && s.attached q := by
  refine List.filter_congr fun q _ => ?_
  by_cases same : q = p
  · rw [same, bne_self_eq_false]
    rfl
  · rw [State.attached, State.attached, State.sessionState, State.sessionState, port_modPort_other s same]

theorem finish_changeSession (s : State) (p : Port) (x : SessionState) : ((Work.start s).changeSession p x).finish =
    ((s.modSession p fun y => { y with state := x }).placeAll (allPorts.filter fun q => q != p && s.attached q)
      (mkRecord .peerState p.val (sessionValue x))).modPort p fun y => y.completes .ok res0 false := by
  refine (finish_complete rfl ..).trans ?_
  rw [map_state, start_state]
  unfold State.placePeerState State.setSession State.modSession
  rw [attachedOthers_modPort]

theorem startTeardown_eq (s : State) (p : Port) : s.startTeardown p = s.modPort p fun y =>
    { y with
      session := { y.session with state := .resetting }
      teardown := { y.teardown with phase := .fence, nextBuffer := 0, nextChannel := 0 } } := by
  unfold State.startTeardown State.modTeardown State.setSession State.modSession
  rw [modPort_modPort]

theorem exec_attach_ready (h : s.blockReady p .attach = true) :
    exec (.attach p .carriedOut) s = .next (((Work.start s).changeSession p .active).finish).settle :=
  congrArg done (blockRequest_ready h fun w => w.changeSession p .active)

theorem exec_quiesce_ready (h : s.blockReady p .quiesce = true) :
    exec (.quiesce p .carriedOut) s = .next (((Work.start s).changeSession p .quiesced).finish).settle :=
  congrArg done (blockRequest_ready h fun w => w.changeSession p .quiesced)

theorem exec_resume_ready (h : s.blockReady p .resume = true) :
    exec (.resume p .carriedOut) s = .next (((Work.start s).changeSession p .active).finish).settle :=
  congrArg done (blockRequest_ready h fun w => w.changeSession p .active)

theorem exec_detach_ready (h : s.blockReady p .detach = true) :
    exec (.detach p .carriedOut) s = .next (((Work.start s).detach p).finish).settle := congrArg done (blockRequest_ready h fun w => w.detach p)

theorem exec_setLease_ready (h : s.blockReady p .setLease = true) :
    exec (.setLease p .carriedOut) s = .next (((Work.start s).setLease p).finish).settle :=
  congrArg done (blockRequest_ready h fun w => w.setLease p)

end

/-- Settles O43: the session requests, and SET_LEASE. -/
theorem sessionRequests : Obligations.SessionRequests := by
  unfold Obligations.SessionRequests
  refine ⟨fun p s => ⟨fun c i x v command ready => ?_, fun ready => ?_⟩, fun p s ready => ?_⟩
  · rcases command with ⟨rfl, rfl, rfl, rfl⟩ | ⟨rfl, rfl, rfl, rfl⟩ | ⟨rfl, rfl, rfl, rfl⟩
    · rw [exec_attach_ready ready, finish_changeSession]
      rfl
    · rw [exec_quiesce_ready ready, finish_changeSession]
      rfl
    · rw [exec_resume_ready ready, finish_changeSession]
      rfl
  · rw [exec_detach_ready ready, ← startTeardown_eq]
    rfl
  · rw [exec_setLease_ready ready]
    unfold Work.setLease State.modSession
    rw [finish_complete rfl, map_state, start_state, modPort_modPort]

/-! ## /PRSTn (R123, R137) -/

section
variable {s : State} {p : Port}

theorem isAccess_iff (w : PathRequest) :
    w.isAccess = true ↔ w = .windowRead ∨ w = .windowWrite ∨ w = .streamRead ∨ w = .streamWrite := by
  cases w <;> simp [PathRequest.isAccess]

/-- The path's request is one that /PRSTn withdraws. -/
theorem withdrawable_iff (s : State) (p : Port) : s.withdrawable p = true ↔ ∃ r, (s.port p).path = some r ∧
    (r.what = .windowRead ∨ r.what = .windowWrite ∨ r.what = .streamRead ∨ r.what = .streamWrite) ∧
      (s.arbiter r.bank).current ≠ some (.port p) := by
  unfold State.withdrawable
  rw [Option.any_eq_true]
  simp only [Bool.and_eq_true, isAccess_iff, bne_iff_ne]

/-- A port at the falling edge: its access ended, and its path as the withdrawal leaves it. -/
def PortState.prstEnded (x : PortState) (path : Option BankRequest) : PortState :=
  { x with
    path := path, access := none, prstLow := true
    dataBus := if x.access.any fun a => a.kind.answers then 0xFFFF#16 else x.dataBus }

/-- An attached port at the falling edge becomes RESETTING, its teardown begun. -/
def PortState.prstReset (x : PortState) (attached : Bool) : PortState :=
  if attached then
    { x with
      session := { x.session with state := .resetting, sessionChange := true }
      teardown := { x.teardown with phase := .fence, nextBuffer := 0, nextChannel := 0 } }
  else x

theorem prstFalls_eq (s : State) (p : Port) : s.prstFalls p = s.modPort p fun x =>
    (x.prstEnded (if s.withdrawable p then none else x.path)).prstReset (s.attached p) := by
  have path : ((s.withdrawAccess p).modPort p PortState.endAccess).setPrst p true = s.modPort p fun x =>
      x.prstEnded (if s.withdrawable p then none else x.path) := by
    unfold State.withdrawAccess State.setPrst
    by_cases withdrawn : s.withdrawable p = true
    · rw [if_pos withdrawn, modPort_modPort, modPort_modPort]
      simp only [if_pos withdrawn]
      rfl
    · rw [if_neg withdrawn, modPort_modPort]
      simp only [if_neg withdrawn]
      rfl
  unfold State.prstFalls State.setSessionChange State.modSession
  simp only
  rw [path, startTeardown_eq, modPort_modPort, modPort_modPort]
  unfold PortState.prstReset
  split <;> rfl

end

/-- Settles O44: the edges of /PRSTn. -/
theorem portResetInput : Obligations.PortResetInput := by
  unfold Obligations.PortResetInput
  intro p s
  refine ⟨rfl, fun low => congrArg done (if_pos low), fun high => ?_⟩
  intro withdrawn ended reset
  have falls : exec (.prstFalling p) s = .next (s.prstFalls p).settle :=
    congrArg done (if_neg (by rw [high]; exact Bool.false_ne_true))
  refine ⟨fun yes => ?_, fun no => ?_⟩
  · rw [falls, prstFalls_eq]
    simp only [if_pos ((withdrawable_iff s p).2 yes)]
    rfl
  · rw [falls, prstFalls_eq]
    simp only [if_neg (fun h => no ((withdrawable_iff s p).1 h))]
    rfl

end Sys2Proof.Machine
end

section
/-! The fence step and the final step of a teardown: O45 and O47 (R22, R141, R145, R148). -/

namespace Sys2Proof.Machine

/-! ## The fence step (R141) -/

section
variable {s : State} {p : Port}

/-- A channel from whose take-waiter set the port is gone. -/
def Chan.withoutWaiter (x : Chan) (p : Port) : Chan := { x with takeWaiters := maskErase x.takeWaiters p }

theorem withoutWaiter_of_absent {x : Chan} (h : maskHas x.takeWaiters p = false) : x.withoutWaiter p = x := by
  have same : maskErase x.takeWaiters p = x.takeWaiters := mask_ext fun q => by
    rw [maskHas_erase]
    by_cases hq : q = p
    · simp [hq, h]
    · simp [hq]
  unfold Chan.withoutWaiter
  rw [same]

/-- A port that waits for one thing leaves the Claim Wait List and every take-waiter set. -/
theorem leaveWaits_eq (waits : s.WaitsLawful) (p : Port) : s.leaveWaits p =
    { s with claimWait := s.claimWait.erase p, channels := s.channels.map fun x => x.withoutWaiter p } := by
  by_cases waiting : ∃ c, s.TakeWaits p c
  · obtain ⟨c, hc⟩ := waiting
    obtain ⟨off, once⟩ := waits.once p c hc
    rw [leaveWaits_take off hc once, List.erase_of_not_mem off]
    refine state_ext_get (fun _ => rfl) (fun _ => rfl) (fun d => ?_) rfl
    refine Eq.trans ?_ (vector_get_map ..).symm
    by_cases same : d = c
    · subst same
      exact chan_modChan_same ..
    · show _ = (s.chan d).withoutWaiter p
      rw [withoutWaiter_of_absent (Bool.eq_false_iff.2 fun h => same (once d h))]
      exact chan_modChan_other s same _
  · rw [leaveWaits_claim fun c => Bool.eq_false_iff.2 fun h => waiting ⟨c, h⟩]
    refine state_ext_get (fun _ => rfl) (fun _ => rfl) (fun d => ?_) rfl
    refine Eq.trans ?_ (vector_get_map ..).symm
    exact (withoutWaiter_of_absent (Bool.eq_false_iff.2 fun h => waiting ⟨d, h⟩)).symm

/-- A channel at the fence step of a port. -/
def Chan.cutOff (x : Chan) (p : Port) : Chan :=
  { status := match x.setup with
      | some u => if u.kind = .unicast ∧ maskHas u.destinations p = true then .closing u p else x.status
      | none => x.status
    queue := x.queue
    takeWaiters := maskErase x.takeWaiters p }

theorem cutOff_eq (x : Chan) (p : Port) : x.cutOff p =
    if (x.withoutWaiter p).unicastTo p then (x.withoutWaiter p).closeUnder p else x.withoutWaiter p := by
  have setup : (x.withoutWaiter p).setup = x.setup := rfl
  unfold Chan.unicastTo Chan.closeUnder Chan.cutOff
  rw [setup]
  cases x.setup with
  | none => rfl
  | some u =>
    simp only [Option.any_some, Bool.and_eq_true, beq_iff_eq]
    split <;> rfl

/-- The pool at the fence step: the port waits for nothing, and its UNICAST channels are CLOSING under it. -/
def State.cutOff (s : State) (p : Port) : State :=
  { s with claimWait := s.claimWait.erase p, channels := s.channels.map fun x => x.cutOff p }

theorem cutOff_chan (s : State) (p : Port) (c : ChanIx) : (s.cutOff p).chan c = (s.chan c).cutOff p := vector_get_map ..

theorem closeUnicasts_eq (waits : s.WaitsLawful) (f : PortState → PortState) :
    ((s.leaveWaits p).modPort p f).closeUnicasts p = (s.cutOff p).modPort p f := by
  rw [leaveWaits_eq waits]
  refine state_ext_get (fun _ => rfl) (fun _ => rfl) (fun c => ?_) rfl
  rw [chan_modPort, cutOff_chan, cutOff_eq]
  refine (vector_get_map ..).trans ?_
  simp only [modPort_channels, vector_get_map]
  rfl

/-- The close that the unit takes over, when its channel is CLOSING under the port. -/
def State.closeTaken (s : State) (p : Port) : Option ChanIx :=
  match (s.port p).engine.close with
  | some g => if ((s.chan g.channel).cutOff p).closer = some p then some g.channel else none
  | none => none

theorem takenOver_eq (s : State) (p : Port) (f : PortState → PortState) :
    ((s.cutOff p).modPort p f).takenOver p (s.port p).engine.close = s.closeTaken p := by
  unfold State.takenOver State.closeTaken
  cases (s.port p).engine.close with
  | none => rfl
  | some g =>
    simp only [State.closingUnder, chan_modPort, cutOff_chan, beq_iff_eq]

theorem fence_eq (waits : s.WaitsLawful) (p : Port) : s.fence p =
    ((s.cutOff p).modPort p fun x =>
      { x.fenced with teardown := x.teardown.fenced (s.closeTaken p) x.engine.bulk.isSome }).placeAll
        (allPorts.filter fun q => q != p && s.attached q) (mkRecord .peerState p.val 3) := by
  unfold State.fence State.modTeardown State.placePeerState
  simp only
  rw [closeUnicasts_eq waits, takenOver_eq, modPort_modPort, attachedOthers_modPort]
  exact congrArg (fun t : State => t.placeAll _ _) (modPort_congr _ p rfl)

theorem exec_fenceStep_granted (h : s.grants (.tu p) .fence = true) :
    exec (.fenceStep p) s = .next ((s.served (.tu p)).fence p).settle :=
  congrArg done ((tableOp_granted h _).trans (finish_of_owed_nil rfl))

end

/-- Settles O45: the fence step, whole. -/
theorem fenceStepCutsOff : Obligations.FenceStepCutsOff := by
  unfold Obligations.FenceStepCutsOff
  intro p s granted waits cutOff inHand base fenced
  have waits' : (s.served (.tu p)).WaitsLawful := ⟨waits.nodup, waits.waiting, waits.once⟩
  rw [exec_fenceStep_granted granted, fence_eq waits']
  rfl

/-! ## The final step (R145) -/

section
variable {s : State} {p : Port}

theorem finishTeardown_eq (s : State) (p : Port) : s.finishTeardown p = (s.modPort p PortState.finished).placeAll
    (allPorts.filter fun q => q != p && s.attached q) (mkRecord .peerState p.val 0) := by
  unfold State.finishTeardown State.placePeerState
  rw [attachedOthers_modPort]
  rfl

theorem searchChannel_none (h : ∀ c : ChanIx, (s.port p).teardown.nextChannel ≤ c.val → (s.chan c).concerns p = false) :
    s.searchChannel p = none :=
  List.find?_eq_none.2 fun c _ found => by
    rw [Bool.and_eq_true_iff, decide_eq_true_eq] at found
    rw [h c found.1] at found
    exact Bool.false_ne_true found.2

/-- A channel step that finds nothing left and owes no end step is the final step. -/
theorem channelStep_final (inHand : (s.port p).teardown.inHand = none)
    (none : ∀ c : ChanIx, (s.port p).teardown.nextChannel ≤ c.val → (s.chan c).concerns p = false)
    (owed : (s.port p).teardown.endOwed = false) : ((Work.start s).channelStep p).finish = s.finishTeardown p := by
  unfold Work.channelStep Work.channelsDone
  simp only [start_state, inHand, searchChannel_none none, owed]
  exact finish_of_owed_nil rfl

theorem exec_finalStep_final (h : s.grants (.tu p) .final = true) (phase : (s.port p).teardown.phase = .final) :
    exec (.finalStep p) s = .next ((s.served (.tu p)).finishTeardown p).settle := by
  refine congrArg done ?_
  simp only [phase]
  exact (tableOp_granted h _).trans (finish_of_owed_nil rfl)

theorem exec_finalStep_channels (h : s.grants (.tu p) .channel = true) (phase : (s.port p).teardown.phase = .channels)
    (ends : s.channelsOver p = true) :
    exec (.finalStep p) s = .next (((Work.start (s.served (.tu p))).channelStep p).finish).settle := by
  refine congrArg done ?_
  simp only [phase, ends, if_true]
  exact tableOp_granted h fun w => w.channelStep p

end

/-- Settles O47: the final step, and the channel step that goes on as one. -/
theorem finalStepDetaches : Obligations.FinalStepDetaches := by
  unfold Obligations.FinalStepDetaches
  intro p s op command granted
  have final : exec (.finalStep p) s = .next ((s.served (.tu p)).finishTeardown p).settle := by
    rcases command with ⟨rfl, phase⟩ | ⟨rfl, phase, inHand, none, owed⟩
    · exact exec_finalStep_final granted phase
    · have ends : s.channelsOver p = true := by
        unfold State.channelsOver
        rw [inHand, searchChannel_none none, owed]
        rfl
      rw [exec_finalStep_channels granted phase ends, channelStep_final (s := s.served (.tu p)) inHand none owed]
  rw [final, finishTeardown_eq]
  rfl

end Sys2Proof.Machine
end

section
/-! Supervision: O48 (R12, R160 to R162). -/

namespace Sys2Proof.Machine

/-! ## SET_PARAM (R160, R161) -/

section
variable {s : State} {p : Port}

theorem not_supervises {s : State} {p : Port} (h : ¬(s.supen = true ∧ s.sup = p)) : s.supervises p = false :=
  Bool.eq_false_iff.2 fun e => h (supervises_iff.1 e)

theorem paramOperand_one {w : Word} (h : w.toNat = 1) : paramOperand w = some .timebaseDiv := by
  rw [paramOperand, h]
  rfl
theorem paramOperand_two {w : Word} (h : w.toNat = 2) : paramOperand w = some .refreshInterval := by
  rw [paramOperand, h]
  rfl
theorem paramOperand_three {w : Word} (h : w.toNat = 3) : paramOperand w = some .urgentDebt := by
  rw [paramOperand, h]
  rfl

/-- The values that a parameter admits (R160). -/
theorem admits_iff (x : Param) (v : Nat) : x.admits v = true ↔
    match x with
    | .timebaseDiv => 20 ≤ v ∧ v ≤ 133
    | .refreshInterval => 4 ≤ v ∧ v ≤ 60
    | .urgentDebt => 1 ≤ v ∧ v ≤ 8 := by
  cases x <;> exact Bool.and_eq_true_iff.trans (and_congr decide_eq_true_iff decide_eq_true_iff)

/-- The codes beyond the table. -/
theorem paramOperand_none {w : Word} (h : w.toNat = 0 ∨ 4 ≤ w.toNat) : paramOperand w = none := by
  unfold paramOperand
  split <;> simp_all

theorem exec_setParam_ready (h : s.blockReady p .setParam = true) :
    exec (.setParam p .carriedOut) s = .next (((Work.start s).setParam p).finish).settle :=
  congrArg done (blockRequest_ready h fun w => w.setParam p)

theorem finish_start_refuse (s : State) (p : Port) (e : ResultCode) :
    ((Work.start s).refuse p e).finish = s.modPort p fun x => x.completes e res0 false := finish_complete rfl ..

theorem setParam_of_other (other : ¬(s.supen = true ∧ s.sup = p)) : (Work.start s).setParam p = (Work.start s).refuse p .notPermitted := by
  unfold Work.setParam
  simp only [start_state, not_supervises other]
  rfl

section
variable (may : s.supen = true ∧ s.sup = p)
include may

theorem setParam_of_unknown (unknown : paramOperand (s.operand p 0) = none) :
    (Work.start s).setParam p = (Work.start s).refuse p .range := by
  unfold Work.setParam
  simp only [start_state, supervises_iff.2 may, unknown]
  rfl

variable {x : Param} (known : paramOperand (s.operand p 0) = some x)
include known

theorem setParam_of_out (out : x.admits (s.operand p 1).toNat = false) : (Work.start s).setParam p = (Work.start s).refuse p .range := by
  unfold Work.setParam
  simp only [start_state, supervises_iff.2 may, known, out]
  rfl

theorem setParam_of_in (admits : x.admits (s.operand p 1).toNat = true) : (Work.start s).setParam p =
    ((Work.start s).map fun t => (t.setParameter x (s.operand p 1).toNat).placeParamChanged (t.operand p 0).toNat
      (s.operand p 1).toNat).complete p .ok res0 false := by
  unfold Work.setParam
  simp only [start_state, supervises_iff.2 may, known, admits]
  rfl

end

theorem attached_setParameter (s : State) (x : Param) (v : Nat) : (s.setParameter x v).attached = s.attached := by cases x <;> rfl

/-- The records of a change: one to each attached port, with the words of the request. -/
theorem placeParamChanged_words {t : State} (h : t.attached = s.attached) (a b : Word) :
    t.placeParamChanged a.toNat b.toNat =
      t.placeAll (allPorts.filter s.attached) { kind := .paramChanged, subject := a, value := b } := by
  unfold State.placeParamChanged State.attachedPorts mkRecord
  rw [h, BitVec.ofNat_toNat, BitVec.ofNat_toNat, BitVec.setWidth_eq, BitVec.setWidth_eq]

theorem finish_setParam_of_in (may : s.supen = true ∧ s.sup = p) {x : Param} (known : paramOperand (s.operand p 0) = some x)
    (admits : x.admits (s.operand p 1).toNat = true) : ((Work.start s).setParam p).finish =
      ((s.setParameter x (s.operand p 1).toNat).placeAll (allPorts.filter s.attached)
        { kind := .paramChanged, subject := s.operand p 0, value := s.operand p 1 }).modPort p fun x => x.completes .ok res0 false := by
  rw [setParam_of_in may known admits, finish_complete rfl, map_state, start_state, placeParamChanged_words (attached_setParameter s x _)]

/-! ## SET_QUOTA (R12, R162) -/

theorem exec_setQuota_granted (h : s.grants (.re p) (.request .setQuota) = true) :
    exec (.setQuota p .carriedOut) s = .next (((Work.start (s.served (.re p))).setQuota p).finish).settle :=
  congrArg done (tableRequest_granted h fun w => w.setQuota p)

theorem setQuota_of_refusal {w : Work} {e : ResultCode} (h : w.state.quotaRefusal p = some e) : w.setQuota p = w.refuse p e := by
  unfold Work.setQuota
  simp only [h]

theorem quotaRefusal_other (other : ¬(s.supen = true ∧ s.sup = p)) : s.quotaRefusal p = some .notPermitted := by
  unfold State.quotaRefusal
  rw [not_supervises other]
  rfl

theorem portOperand_of_port {w : Word} {q : Port} (h : w.toNat = q.val) : portOperand w = some q := by
  have inside : w.toNat < 4 := h ▸ q.isLt
  unfold portOperand
  rw [dif_pos inside]
  exact congrArg some (Fin.ext h)

theorem portOperand_of_range {w : Word} (h : 4 ≤ w.toNat) : portOperand w = none := dif_neg (Nat.not_lt.2 h)

/-- The state of a changed quota, with its records handed out (R162). -/
def State.quotaSet (s : State) (q : Port) (v : Nat) : State :=
  (s.modPort q fun x => { x with quota := v }).placeParamChanged (quotaCode q) v

theorem finish_changeQuota (s : State) (q : Port) (v : Nat) (distinct : s.claimWait.Nodup) :
    ((Work.start s).changeQuota q v).finish =
      if (s.port q).quota < v then (s.quotaSet q v).waitServed q else s.quotaSet q v := by
  have set : ((Work.start s).map fun t => t.quotaSet q v).finish = s.quotaSet q v := finish_of_owed_nil rfl
  by_cases raised : (s.port q).quota < v
  · have serves : (Work.start s).changeQuota q v = ((Work.start s).map fun t => t.quotaSet q v).serveWaiter q := if_pos raised
    have distinct' : (s.quotaSet q v).claimWait.Nodup := by
      unfold State.quotaSet State.placeParamChanged
      rw [placeAll_claimWait]
      exact distinct
    rw [if_pos raised, serves, finish_serveWaiter _ _ distinct', set]
  · have stays : (Work.start s).changeQuota q v = (Work.start s).map fun t => t.quotaSet q v := if_neg raised
    rw [if_neg raised, stays, set]

section
variable (may : s.supen = true ∧ s.sup = p)
include may

theorem quotaRefusal_port (range : 4 ≤ (s.operand p 0).toNat) : s.quotaRefusal p = some .range := by
  unfold State.quotaRefusal
  rw [supervises_iff.2 may, portOperand_of_range range]
  rfl

variable {q : Port} (named : (s.operand p 0).toNat = q.val)
include named

theorem quotaRefusal_named : s.quotaRefusal p =
    if 256 < (s.operand p 1).toNat ∨ (s.operand p 1).toNat < (s.port q).charge then some .range else none := by
  unfold State.quotaRefusal
  rw [supervises_iff.2 may, portOperand_of_port named]
  simp

theorem finish_setQuota (small : (s.operand p 1).toNat ≤ 256) (covers : (s.port q).charge ≤ (s.operand p 1).toNat)
    (distinct : s.claimWait.Nodup) : ((Work.start s).setQuota p).finish =
      (if (s.port q).quota < (s.operand p 1).toNat then (s.quotaSet q (s.operand p 1).toNat).waitServed q
      else s.quotaSet q (s.operand p 1).toNat).modPort p fun x => x.completes .ok res0 false := by
  have accepted : s.quotaRefusal p = none := by
    rw [quotaRefusal_named may named, if_neg (by omega)]
  have changes : (Work.start s).setQuota p = ((Work.start s).changeQuota q (s.operand p 1).toNat).complete p .ok res0 false := by
    unfold Work.setQuota
    simp only [start_state, accepted, portOperand_of_port named]
  rw [changes, finish_completes, finish_changeQuota s q _ distinct]

end
end

/-- Settles O48: SET_PARAM and SET_QUOTA. -/
theorem supervisorSettings : Obligations.SupervisorSettings := by
  unfold Obligations.SupervisorSettings
  refine ⟨fun p s ready => ?_, fun p s granted => ?_⟩
  · intro code v refusedWith changed
    have refused {e : ResultCode} (h : (Work.start s).setParam p = (Work.start s).refuse p e) : refusedWith e :=
      (exec_setParam_ready ready).trans (congrArg done (h ▸ finish_start_refuse s p e))
    have made (may : s.supen = true ∧ s.sup = p) {x : Param} (known : paramOperand (s.operand p 0) = some x)
        (admits : x.admits v = true) : changed (s.setParameter x v) :=
      (exec_setParam_ready ready).trans (congrArg done (finish_setParam_of_in may known admits))
    have range (may : s.supen = true ∧ s.sup = p) {x : Param} {lo hi : Nat} (known : paramOperand (s.operand p 0) = some x)
        (admits : x.admits v = true ↔ lo ≤ v ∧ v ≤ hi) :
        (lo ≤ v ∧ v ≤ hi → changed (s.setParameter x v)) ∧ (v < lo ∨ hi < v → refusedWith .range) :=
      ⟨fun inside => made may known (admits.2 inside), fun out => refused (setParam_of_out may known
        (Bool.eq_false_iff.2 fun e => by
          obtain ⟨low, high⟩ := admits.1 e
          omega))⟩
    exact ⟨fun other => refused (setParam_of_other other), fun may =>
      ⟨fun unknown => refused (setParam_of_unknown may (paramOperand_none unknown)),
        fun one => range may (paramOperand_one one) (admits_iff .timebaseDiv v),
        fun two => range may (paramOperand_two two) (admits_iff .refreshInterval v),
        fun three => range may (paramOperand_three three) (admits_iff .urgentDebt v)⟩⟩
  · intro v refusedWith
    refine ⟨fun other => ?_, fun may => ⟨fun range => ?_, fun q named => ⟨fun out => ?_, fun small covers distinct => ?_⟩⟩⟩
    · exact answers_of_refuse (exec_setQuota_granted granted) (setQuota_of_refusal (quotaRefusal_other other))
    · exact answers_of_refuse (exec_setQuota_granted granted) (setQuota_of_refusal (quotaRefusal_port may range))
    · exact answers_of_refuse (exec_setQuota_granted granted)
        (setQuota_of_refusal ((quotaRefusal_named may named).trans (if_pos out)))
    · rw [exec_setQuota_granted granted, finish_setQuota (s := s.served (.re p)) may named small covers distinct]
      have changed : (s.served (.re p)).quotaSet q v = ((s.served (.re p)).modPort q fun x => { x with quota := v }).placeAll
          (allPorts.filter s.attached) (mkRecord .paramChanged (0x10 + q.val) v) := by
        have same : State.attachedPorts ((s.served (.re p)).modPort q fun x => { x with quota := v }) = allPorts.filter s.attached :=
          List.filter_congr fun r _ => attached_modPort (s.served (.re p)) q r fun _ => rfl
        unfold State.quotaSet State.placeParamChanged
        rw [same]
        rfl
      rw [← changed]
      rfl

end Sys2Proof.Machine
end

section
/-! The register window: O50 (R23, R147, R153, R155, R164, R166 to R172). -/

namespace Sys2Proof.Machine

/-! ## NOTE0 and the register writes -/

section
variable {s : State} {p : Port} (ready : s.busReady p = true)
include ready

theorem exec_note0Pop_ready (strobe : Strobe) :
    exec (.note0Pop { port := p, strobe := strobe }) s = .next (s.popNote p strobe).settle :=
  congrArg done (busRead_ready ready strobe fun t => t.popNote p strobe)

theorem exec_pstatWrite_ready (d : Word) (l : Lanes) : exec (.pstatWrite p d l) s = .next (s.pstatWrite p d l).settle :=
  congrArg done (busWrite_ready ready fun t => t.pstatWrite p d l)

theorem exec_pcfgWrite_ready (d : Word) (l : Lanes) : exec (.pcfgWrite p d l) s = .next (s.pcfgWrite p d l).settle :=
  congrArg done (busWrite_ready ready fun t => t.pcfgWrite p d l)

theorem exec_registerWrite_ready (addr : BitVec 10) (d : Word) (l : Lanes) :
    exec (.registerWrite p addr d l) s = .next (s.writeAt p addr d l).settle :=
  congrArg done (busWrite_ready ready fun t => t.writeAt p addr d l)

end

theorem popNote_eq (s : State) (p : Port) (st : Strobe) : s.popNote p st = s.modPort p fun x =>
    { x with notes := x.notes.pop, dataBus := if st = .held then (s.port p).notes.popWord else x.dataBus } := by
  unfold State.popNote
  rw [answerRead_eq, modPort_modPort]

/-! ## The address map (R166) -/

theorem placeOf_opd : ∀ i : Fin 6, placeOf (BitVec.ofNat 10 (1 + i.val)) = .opd i := by decide

/-- The places that ignore a write. -/
def Place.readOnly : Place → Bool
  | .rsp | .res _ | .note0 | .note1 | .note2 | .note3 | .windowStatus _ | .globalStatus | .freeCount | .ownCharge
  | .ownQuota | .zeros | .ones => true
  | .req | .opd _ | .pstat | .pcfg | .streamSettings | .streamData | .window _ _ => false

theorem writeAt_readOnly {s : State} {p : Port} {addr : BitVec 10} (h : (placeOf addr).readOnly = true) (d : Word) (l : Lanes) :
    s.writeAt p addr d l = s := by
  unfold State.writeAt
  cases place : placeOf addr <;> rw [place] at h <;> first | rfl | exact absurd h Bool.false_ne_true

theorem placeOf_readOnly {addr : BitVec 10} (h : (7 ≤ addr.toNat ∧ addr.toNat ≤ 0x17) ∨ addr.toNat = 0x1A ∨ addr.toNat = 0x1B ∨
    (0x1E ≤ addr.toNat ∧ addr.toNat < 0x200)) : (placeOf addr).readOnly = true := by
  unfold placeOf
  grind (splits := 40) [Place.readOnly]

theorem placeOf_zeros {addr : BitVec 10} (h : addr.toNat = 0x07 ∨ (0x0D ≤ addr.toNat ∧ addr.toNat ≤ 0x0F) ∨
    (0x14 ≤ addr.toNat ∧ addr.toNat ≤ 0x17) ∨ addr.toNat = 0x1E ∨ addr.toNat = 0x1F ∨
      (0x24 ≤ addr.toNat ∧ addr.toNat ≤ 0x3F)) : placeOf addr = .zeros := by
  unfold placeOf
  grind (splits := 40)

theorem placeOf_ones {addr : BitVec 10} (h : 0x40 ≤ addr.toNat ∧ addr.toNat ≤ 0x1FF) : placeOf addr = .ones := by
  unfold placeOf
  grind (splits := 40)

/-! ## The words of the registers (R164, R169 to R172) -/

theorem rspWord_eq (e : Engine) {state : BitVec 2} {code : BitVec 5} (hs : state.toNat = engineStateValue e.state)
    (hc : code.toNat = resultValue e.result) : e.rspWord = 0#3 ++ code ++ 0#6 ++ state := by
  unfold Engine.rspWord
  rw [← hs, ← hc]
  refine BitVec.eq_of_getLsbD_eq fun j hj => ?_
  simp only [fieldAt_ofBitVec, BitVec.getLsbD_or, BitVec.getLsbD_shiftLeft, BitVec.getLsbD_setWidth, BitVec.getLsbD_append]
  interval_cases j <;> simp

theorem pstatWord_eq (x : Session) {state : BitVec 2} (hs : state.toNat = sessionValue x.state) : x.word =
    0#5 ++ BitVec.ofBool x.windowFault ++ BitVec.ofBool x.refused ++ BitVec.ofBool x.sessionChange ++ 0#6 ++ state := by
  unfold Session.word
  rw [← hs]
  refine BitVec.eq_of_getLsbD_eq fun j hj => ?_
  simp only [fieldAt_ofBitVec, bitAt_ofBool, BitVec.getLsbD_or, BitVec.getLsbD_shiftLeft, BitVec.getLsbD_setWidth, BitVec.getLsbD_append]
  interval_cases j <;> simp

theorem pcfgWord_eq (x : PortConfig) {mode : BitVec 2} (hm : mode.toNat = noticeField x.noticeMode) : x.word =
    0#5 ++ BitVec.ofBool x.windowFaultEnable ++ BitVec.ofBool x.refusedEnable ++ BitVec.ofBool x.sessionChangeEnable ++ 0#4 ++
      mode ++ BitVec.ofBool x.queueEnable ++ BitVec.ofBool (x.byteOrder == .big) := by
  unfold PortConfig.word
  rw [← hm]
  refine BitVec.eq_of_getLsbD_eq fun j hj => ?_
  simp only [fieldAt_ofBitVec, bitAt_ofBool, BitVec.getLsbD_or, BitVec.getLsbD_shiftLeft, BitVec.getLsbD_setWidth, BitVec.getLsbD_append]
  interval_cases j <;> simp

theorem handleIx_field (h : Word) : (h.extractLsb' 0 8).toNat = (handleIx h).val := by
  simp [handleIx, BitVec.extractLsb'_toNat]

theorem viewWord_eq (v : View) : v.word = v.handle.extractLsb' 0 8 ++ 0#5 ++ BitVec.ofBool (v.mode == .ro) ++ 0#2 := by
  unfold View.word
  rw [← handleIx_field]
  refine BitVec.eq_of_getLsbD_eq fun j hj => ?_
  simp only [fieldAt_ofBitVec, bitAt_ofBool, BitVec.getLsbD_or, BitVec.getLsbD_shiftLeft, BitVec.getLsbD_setWidth, BitVec.getLsbD_append]
  interval_cases j <;> simp

/-- A window's status joins the fields of its view. -/
theorem statusField_or (index : BitVec 8) (mode : BitVec 1) (n : BitVec 2) :
    n.setWidth 16 ||| (index ++ 0#5 ++ mode ++ 0#2) = index ++ 0#5 ++ mode ++ n := by
  refine BitVec.eq_of_getLsbD_eq fun j hj => ?_
  simp only [BitVec.getLsbD_or, BitVec.getLsbD_setWidth, BitVec.getLsbD_append]
  interval_cases j <;> simp

theorem streamWord_eq (x : Stream) (inside : x.pointer ≤ 512) : x.word =
    0#2 ++ BitVec.ofNat 10 x.pointer ++ BitVec.ofBool x.prefixDue ++ BitVec.ofBool x.lengthPrefix ++
      BitVec.ofBool (x.direction == .write) ++ BitVec.ofBool (x.select == .b) := by
  have pointer : x.pointer = (BitVec.ofNat 10 x.pointer).toNat := by
    rw [BitVec.toNat_ofNat]
    omega
  unfold Stream.word
  rw [show fieldAt x.pointer 4 = fieldAt (BitVec.ofNat 10 x.pointer).toNat 4 by rw [← pointer]]
  refine BitVec.eq_of_getLsbD_eq fun j hj => ?_
  simp only [fieldAt_ofBitVec, bitAt_ofBool, BitVec.getLsbD_or, BitVec.getLsbD_shiftLeft, BitVec.getLsbD_setWidth, BitVec.getLsbD_append]
  interval_cases j <;> simp

theorem globalWord_eq (s : State) : s.globalWord =
    0#5 ++ BitVec.ofNat 2 s.sup.val ++ BitVec.ofBool s.supen ++ 0#4 ++ BitVec.ofBool (s.bankRefresh 3).missed ++
      BitVec.ofBool (s.bankRefresh 2).missed ++ BitVec.ofBool (s.bankRefresh 1).missed ++ BitVec.ofBool (s.bankRefresh 0).missed := by
  have port : s.sup.val = (BitVec.ofNat 2 s.sup.val).toNat := by
    rw [BitVec.toNat_ofNat]
    exact (Nat.mod_eq_of_lt s.sup.isLt).symm
  unfold State.globalWord allBanks
  rw [show fieldAt s.sup.val 9 = fieldAt (BitVec.ofNat 2 s.sup.val).toNat 9 by rw [← port]]
  refine BitVec.eq_of_getLsbD_eq fun j hj => ?_
  simp only [List.foldl, fieldAt_ofBitVec, bitAt_ofBool, BitVec.getLsbD_or, BitVec.getLsbD_shiftLeft, BitVec.getLsbD_setWidth,
    BitVec.getLsbD_append]
  interval_cases j <;> simp

/-! ## The codes, as places in the statement's lists -/

theorem engineState_field (x : EngineState) :
    (BitVec.ofNat 2 ([EngineState.idle, .busy, .waiting].idxOf x)).toNat = engineStateValue x := by cases x <;> rfl

theorem result_field (x : ResultCode) : (BitVec.ofNat 5
    ([ResultCode.none, .ok, .badRequest, .range, .staleHandle, .notHolder, .badState, .busyBuffer, .noBuffer, .quota,
      .channelClosed, .notSource, .notDestination, .queueFull, .queueEmpty, .timeout, .cancelled, .aborted, .dataError,
      .notPermitted, .session].idxOf x)).toNat = resultValue x := by cases x <;> rfl

theorem sessionState_field (x : SessionState) :
    (BitVec.ofNat 2 ([SessionState.detached, .active, .quiesced, .resetting].idxOf x)).toNat = sessionValue x := by cases x <;> rfl

theorem notice_field (x : NoticeMode) : (BitVec.ofNat 2 ([NoticeMode.off, .long, .all].idxOf x)).toNat = noticeField x := by
  cases x <;> rfl

theorem registerRead_of_high {s : State} {p : Port} (high : s.resetLow = false) (inactive : (s.port p).prstLow = false)
    {addr : BitVec 10} {x : Place} (place : placeOf addr = x) {w : Word} (word : s.wordAtPlace p x = some w) :
    s.registerRead p addr = some w := by
  unfold State.registerRead
  rw [high, inactive, place]
  exact word

/-- Settles O50: NOTE0, the register writes, and the word that each register returns. -/
theorem registerAccesses : Obligations.RegisterAccesses := by
  unfold Obligations.RegisterAccesses
  refine ⟨fun p strobe s ready => ⟨fun r rest records => ?_, fun empty => ?_⟩,
    fun p d l s ready => ⟨?_, ?_, fun i => ?_, fun addr h => ?_⟩, fun p s high inactive => ?_⟩
  · rw [exec_note0Pop_ready ready, popNote_eq]
    refine congrArg done (modPort_congr s p ?_)
    simp only [NoteQueue.pop, NoteQueue.popWord, records]
  · rw [exec_note0Pop_ready ready, popNote_eq]
    refine congrArg done (modPort_congr s p ?_)
    simp only [NoteQueue.pop, NoteQueue.popWord, empty]
  · exact exec_pstatWrite_ready ready d l
  · exact exec_pcfgWrite_ready ready d l
  · intro old new t
    have written : s.writeAt p (BitVec.ofNat 10 (1 + i.val)) d l = s.opdWrite p i d l := by
      unfold State.writeAt
      rw [placeOf_opd]
    obtain ⟨high, inactive, _⟩ := busReady_iff.1 ready
    refine ⟨?_, ?_⟩
    · rw [exec_registerWrite_ready ready, written]
      unfold State.opdWrite State.modEngine
      exact congrArg done (modPort_congr s p rfl)
    · obtain ⟨path, bulk, port⟩ := settle_port_frame (s.modPort p fun x =>
        { x with engine := { x.engine with opd := x.engine.opd.set i.val new i.isLt } }) p
      rw [port_modPort_same] at port
      refine registerRead_of_high (by rw [settle_resetLow]; exact high) (by rw [port]; exact inactive) (placeOf_opd i) ?_
      refine congrArg some ?_
      rw [port]
      exact (vector_get_set ..).trans (if_pos rfl)
  · rw [exec_registerWrite_ready ready, writeAt_readOnly (placeOf_readOnly h)]
  · intro x reads bit
    have read {addr : BitVec 10} {y : Place} (place : placeOf addr = y) {w : Word} (word : s.wordAtPlace p y = some w) : reads addr w :=
      registerRead_of_high high inactive place word
    have window (w : WindowSel) (addr : BitVec 10) (h : (w = .a ∧ addr = 0x01A#10) ∨ (w = .b ∧ addr = 0x01B#10)) :
        placeOf addr = .windowStatus w := by
      rcases h with ⟨rfl, rfl⟩ | ⟨rfl, rfl⟩ <;> rfl
    refine ⟨read rfl rfl, fun i => read (placeOf_opd i) rfl, ?_, read rfl rfl, read rfl rfl, read rfl rfl, read rfl rfl,
      fun empty => ⟨read rfl ?_, read rfl ?_⟩, fun r latch => ⟨read rfl ?_, read rfl ?_⟩, read rfl rfl, ?_, ?_,
      fun w addr h => ⟨fun unmapped => read (window w addr h) ?_, fun v mapped => read (window w addr h) ?_,
        fun v stale => read (window w addr h) ?_⟩, fun inside => ?_, ?_, read rfl rfl, read rfl rfl, read rfl rfl,
      fun addr => ⟨fun h => read (placeOf_zeros h) rfl, fun h => read (placeOf_ones h) rfl⟩⟩
    · exact read rfl (congrArg some (rspWord_eq x.engine (engineState_field _) (result_field _)))
    · exact congrArg some (by rw [NoteQueue.latched, empty]; rfl)
    · exact congrArg some (by rw [NoteQueue.latched, empty]; rfl)
    · exact congrArg some (by rw [NoteQueue.latched, latch]; rfl)
    · exact congrArg some (by rw [NoteQueue.latched, latch]; rfl)
    · exact read rfl (congrArg some (pstatWord_eq x.session (sessionState_field _)))
    · exact read rfl (congrArg some (pcfgWord_eq x.config (notice_field _)))
    · exact congrArg some (by rw [unmapped]; rfl)
    · exact congrArg some (by rw [mapped, Window.word, viewWord_eq]; exact statusField_or _ _ 1#2)
    · exact congrArg some (by rw [stale, Window.word, viewWord_eq]; exact statusField_or _ _ 2#2)
    · exact read rfl (congrArg some (streamWord_eq x.stream inside))
    · exact read rfl (congrArg some (globalWord_eq s))

end Sys2Proof.Machine
end

section
/-! What bus accesses and banks leave alone: O53 (R19, R122, R124 to R126). -/

namespace Sys2Proof.Machine

/-! ## Every bus access, and every command of a bank -/

section
variable {P : State → Prop} {p : Port} {s t : State} {c : Instr}

/-- The outcome of a command is the settled state of what it comes to. -/
theorem settled_of_exec {u : State} (meaning : exec c s = done u) (h : exec c s = .next t) (hu : P u) : ∃ u, t = u.settle ∧ P u :=
  ⟨u, next_of_done (meaning.symm.trans h), hu⟩

/-- A bus access comes to updates of a bus access. -/
theorem BusClosed.exec_bus (hB : BusClosed p P) (pop : ∀ {s : State}, P s → P (s.modPort p fun x => { x with notes := x.notes.pop }))
    (bus : c.busPort = some p) (h : P s) (he : exec c s = .next t) : ∃ u, t = u.settle ∧ P u := by
  cases c with
  | claim q m | release q m | adopt q m | renew q m | query q m | openChannel q m | post q m | take q m | channelStatus q m
  | closeChannel q m | setLease q m | map q m | unmap q m | fill q m | copy q m | attach q m | quiesce q m | resume q m | detach q m
  | setParam q m | setQuota q m | clearStatus q m =>
    cases m with
    | written zero head =>
      obtain rfl := Option.some.inj bus
      exact settled_of_exec rfl he (hB.reqWrite _ _ h)
    | carriedOut => exact nomatch bus
  | cancel q | badRequest q | refused q =>
    obtain rfl := Option.some.inj bus
    exact settled_of_exec rfl he (hB.reqWrite _ _ h)
  | windowRead q w word =>
    obtain rfl := Option.some.inj bus
    exact settled_of_exec rfl he (hB.busRead _ h (hB.windowRead _ _ _ h))
  | streamDataRead q =>
    obtain rfl := Option.some.inj bus
    exact settled_of_exec rfl he (hB.busRead _ h (hB.streamRead _ h))
  | note0Pop q =>
    obtain rfl := Option.some.inj bus
    exact settled_of_exec rfl he (hB.busRead _ h (pop (hB.answerRead _ _ h)))
  | windowWrite q w word d l =>
    obtain rfl := Option.some.inj bus
    exact settled_of_exec rfl he (busWrite_keeps h (hB.windowWrite _ _ d l h))
  | streamDataWrite q d l =>
    obtain rfl := Option.some.inj bus
    exact settled_of_exec rfl he (busWrite_keeps h (hB.streamWrite d l h))
  | streamSettingsWrite q d l =>
    obtain rfl := Option.some.inj bus
    exact settled_of_exec rfl he (busWrite_keeps h (hB.settingsWrite d l h))
  | pstatWrite q d l =>
    obtain rfl := Option.some.inj bus
    exact settled_of_exec rfl he (busWrite_keeps h (hB.flag (f := fun x => x.statusWrite d l) (fun _ => rfl) h))
  | pcfgWrite q d l =>
    obtain rfl := Option.some.inj bus
    exact settled_of_exec rfl he (busWrite_keeps h
      (hB.port (f := fun x => { x with config := configWrite x.config d l }) { engine := .same _ } h))
  | registerWrite q addr d l =>
    obtain rfl := Option.some.inj bus
    exact settled_of_exec rfl he (busWrite_keeps h (hB.writeAt addr d l h))
  | _ => exact nomatch bus

/-- The commands of a port's access path at its bank. -/
def AtBankOf (p : Port) (c : Instr) : Prop :=
  ∃ m, c = .windowReadGrant p m ∨ c = .windowWriteGrant p m ∨ c = .streamReadGrant p m ∨ c = .streamWriteGrant p m ∨
    c = .fillBurst p m ∨ c = .copyBurstRead p m ∨ c = .copyBurstWrite p m

/-- A property that the occupation and the release of the port's bank keep, beside its bus accesses and the bytes. -/
structure BankClosed (p : Port) (P : State → Prop) : Prop extends BusClosed p P where
  bytes : BytesClosed P
  occupied : ∀ {s : State} {r : BankRequest}, s.bankGrants p r → P s → P (s.occupied r.bank p)
  freed : ∀ {s : State} {r : BankRequest}, (s.port p).path = some r → (s.arbiter r.bank).current = some (.port p) →
    P s → P (s.bankFreed r.bank p)

theorem BankClosed.atBankMoment (hB : BankClosed p P) {what : PathRequest} {m : BankMoment} {granted finished : State → State}
    (h : P s) (hg : ∀ t, P t → P (granted t)) (hf : ∀ t, P t → P (finished t)) : P (s.atBankMoment p what m granted finished) := by
  cases m with
  | granted =>
    show P (s.bankGrant p what granted)
    unfold State.bankGrant
    split
    · exact h
    · rename_i r path
      split
      · rename_i grants
        simp only [Bool.and_eq_true, beq_iff_eq] at grants
        exact hg _ (hB.occupied ⟨path, grants.2⟩ h)
      · exact h
  | carriedOut =>
    show P (s.bankDone p what finished)
    unfold State.bankDone
    split
    · exact h
    · rename_i r path
      split
      · rename_i current
        simp only [Bool.and_eq_true, beq_iff_eq] at current
        exact hf _ (hB.freed path current.2 h)
      · exact h

theorem BankClosed.exec_bank (hB : BankClosed p P) (bank : AtBankOf p c) (h : P s) (he : exec c s = .next t) :
    ∃ u, t = u.settle ∧ P u := by
  obtain ⟨m, bank⟩ := bank
  rcases bank with rfl | rfl | rfl | rfl | rfl | rfl | rfl
  · exact settled_of_exec rfl he (hB.atBankMoment h (fun _ ht => hB.readGranted _ ht) fun _ ht => hB.finishAccess ht)
  · exact settled_of_exec rfl he (hB.atBankMoment h (fun _ ht => hB.writeGranted hB.bytes _ _ _ ht) fun _ ht => ht)
  · exact settled_of_exec rfl he (hB.atBankMoment h (fun _ ht => hB.readGranted _ ht) fun _ ht => hB.finishAccess ht)
  · exact settled_of_exec rfl he (hB.atBankMoment h (fun _ ht => hB.writeGranted hB.bytes _ _ _ ht) fun _ ht => ht)
  · exact settled_of_exec rfl he (hB.atBankMoment h (fun _ ht => hB.fillGranted hB.bytes ht) fun _ ht => ht)
  · exact settled_of_exec rfl he (hB.atBankMoment h (fun _ ht => hB.copyReadGranted ht) fun _ ht => ht)
  · exact settled_of_exec rfl he (hB.atBankMoment h (fun _ ht => hB.copyWriteGranted hB.bytes ht) fun _ ht => ht)

end

/-! ## What they leave alone -/

/-- The pool is the same in both states, and every port that `others` names. -/
structure State.PoolSame (others : Port → Prop) (s t : State) : Prop where
  resetLow : t.resetLow = s.resetLow
  buffers : t.buffers = s.buffers
  freeList : t.freeList = s.freeList
  claimWait : t.claimWait = s.claimWait
  channels : t.channels = s.channels
  lastServed : t.lastServed = s.lastServed
  expiry : t.expiry = s.expiry
  charge : ∀ q, (t.port q).charge = (s.port q).charge
  quota : ∀ q, (t.port q).quota = (s.port q).quota
  port : ∀ q, others q → t.port q = s.port q

theorem poolSame_refl (others : Port → Prop) (s : State) : s.PoolSame others s :=
  ⟨rfl, rfl, rfl, rfl, rfl, rfl, rfl, fun _ => rfl, fun _ => rfl, fun _ _ => rfl⟩

theorem poolSame_modPort {s t : State} {p : Port} {f : PortState → PortState} (charge : ∀ x, (f x).charge = x.charge)
    (quota : ∀ x, (f x).quota = x.quota) (h : s.PoolSame (· ≠ p) t) : s.PoolSame (· ≠ p) (t.modPort p f) :=
  { h with
    charge := fun q => by
      rw [port_modPort, ← h.charge q]
      split
      · exact charge _
      · rfl
    quota := fun q => by
      rw [port_modPort, ← h.quota q]
      split
      · exact quota _
      · rfl
    port := fun q other => by rw [port_modPort_other t other, h.port q other] }

theorem poolSame_bus (p : Port) (s : State) : BusClosed p (s.PoolSame (· ≠ p)) where
  port {t f} beside h := by
    rw [modPort_congr t p (g := fun x => { f (t.port p) with charge := x.charge, quota := x.quota })
      (by rw [← beside.charge, ← beside.quota])]
    exact poolSame_modPort (fun _ => rfl) (fun _ => rfl) h
  place {t r} _ h := by
    unfold State.place
    split
    · exact h
    · exact poolSame_modPort (fun _ => rfl) (fun _ => rfl) h

theorem poolSame_bank (p : Port) (s : State) : BankClosed p (s.PoolSame (· ≠ p)) where
  toBusClosed := poolSame_bus p s
  bytes _ _ _ h := { h with }
  occupied _ h := { h with }
  freed _ _ h := poolSame_modPort (fun _ => rfl) (fun _ => rfl) { h with }

/-- What `PoolSame` says of a settled state. -/
theorem PoolSame.settled {others : Port → Prop} {s t : State} (h : ∃ u, t = u.settle ∧ s.PoolSame others u) :
    (t.buffers = s.buffers ∧ t.freeList = s.freeList ∧ t.claimWait = s.claimWait ∧ t.channels = s.channels ∧
      t.lastServed = s.lastServed ∧ t.expiry = s.expiry ∧
      ∀ q, (t.port q).charge = (s.port q).charge ∧ (t.port q).quota = (s.port q).quota) ∧
    ∀ q, others q → t.port q = if s.resetLow = true then s.port q else (s.port q).present := by
  obtain ⟨u, rfl, same⟩ := h
  refine ⟨⟨?_, ?_, ?_, ?_, ?_, ?_, fun q => ⟨?_, ?_⟩⟩, fun q other => ?_⟩
  · rw [settle_buffers, same.buffers]
  · rw [settle_freeList, same.freeList]
  · rw [settle_claimWait, same.claimWait]
  · rw [settle_channels, same.channels]
  · rw [settle_lastServed, same.lastServed]
  · rw [settle_expiry, same.expiry]
  · rw [settle_port_charge, same.charge]
  · rw [settle_port_quota, same.quota]
  · rw [← same.port q other, ← same.resetLow]
    split
    next low => rw [settle_of_resetLow low]
    next high => exact settle_port_of_high (Bool.not_eq_true _ ▸ high) q

theorem rowRefresh_same {k : BankIx} {m : BankMoment} {s t : State} (h : exec (.rowRefresh k m) s = .next t) :
    ∃ u, t = u.settle ∧ s.PoolSame (fun _ => True) u := by
  cases m with
  | granted =>
    refine settled_of_exec (u := s.refreshGranted k) rfl h ?_
    rw [refreshGranted_frame]
    exact { poolSame_refl _ s with }
  | carriedOut =>
    refine settled_of_exec (u := s.refreshDone k) rfl h ?_
    rw [refreshDone_frame]
    exact { poolSame_refl _ s with }

/-- Settles O53: the bus accesses and the commands of the banks, by the updates they are made of. -/
theorem busAndBanksKeepPool : Obligations.BusAndBanksKeepPool := by
  unfold Obligations.BusAndBanksKeepPool
  intro c s t step
  have bus {p : Port} (h : c.busPort = some p) : ∃ u, t = u.settle ∧ s.PoolSame (· ≠ p) u :=
    (poolSame_bus p s).exec_bus (fun same => poolSame_modPort (fun _ => rfl) (fun _ => rfl) same) h (poolSame_refl _ s) step
  have bank {p : Port} (h : AtBankOf p c) : ∃ u, t = u.settle ∧ s.PoolSame (· ≠ p) u :=
    (poolSame_bank p s).exec_bank h (poolSame_refl _ s) step
  refine ⟨fun kind => ?_, fun p kind q other => ?_, fun ⟨k, m, h⟩ q => ?_⟩
  · rcases kind with h | ⟨p, m, h⟩ | ⟨k, m, rfl⟩
    · obtain ⟨p, h⟩ := Option.isSome_iff_exists.1 h
      exact (PoolSame.settled (bus h)).1
    · exact (PoolSame.settled (bank ⟨m, h⟩)).1
    · exact (PoolSame.settled (rowRefresh_same step)).1
  · rcases kind with h | h
    · exact (PoolSame.settled (bus h)).2 q other
    · exact (PoolSame.settled (bank h)).2 q other
  · subst h
    exact (PoolSame.settled (rowRefresh_same step)).2 q trivial

end Sys2Proof.Machine
end

section
/-! The role steps of a teardown, and what they search (R142, R144). -/

namespace Sys2Proof.Machine

/-! ## What a step searches -/

/-- The first of all numbers that a search finds. -/
theorem find_finRange {n : Nat} {f : Fin n → Bool} {b : Fin n} (hb : f b = true) (first : ∀ d, d < b → f d = false) :
    (List.finRange n).find? f = some b := by
  cases found : (List.finRange n).find? f with
  | none => exact absurd hb (List.find?_eq_none.1 found b (List.mem_finRange b))
  | some d =>
    have near := find_nearest (d := fun x : Fin n => x.val) (List.pairwise_lt_finRange n) found (List.mem_finRange b) hb
    rcases Nat.lt_or_eq_of_le near with less | same
    · exact absurd (List.find?_some found) (by rw [first d less]; exact Bool.false_ne_true)
    · exact congrArg some (Fin.ext same)

section
variable {s : State} {p : Port}

theorem searchRole_some {b : BufIx} (reached : (s.port p).teardown.nextBuffer ≤ b.val) (role : (s.buf b).roleOf p = true)
    (passed : ∀ d : BufIx, (s.port p).teardown.nextBuffer ≤ d.val → d.val < b.val → (s.buf d).roleOf p = false) :
    s.searchRole p = some b := by
  refine find_finRange (by simp [reached, role]) fun d less => ?_
  by_cases at' : (s.port p).teardown.nextBuffer ≤ d.val
  · simp [passed d at' less]
  · simp [at']

theorem searchRole_none (passed : ∀ d : BufIx, (s.port p).teardown.nextBuffer ≤ d.val → (s.buf d).roleOf p = false) :
    s.searchRole p = none :=
  List.find?_eq_none.2 fun d _ found => by
    rw [Bool.and_eq_true_iff, decide_eq_true_eq] at found
    rw [passed d found.1] at found
    exact Bool.false_ne_true found.2

theorem searchChannel_some {c : ChanIx} (reached : (s.port p).teardown.nextChannel ≤ c.val) (concerns : (s.chan c).concerns p = true)
    (passed : ∀ d : ChanIx, (s.port p).teardown.nextChannel ≤ d.val → d.val < c.val → (s.chan d).concerns p = false) :
    s.searchChannel p = some c := by
  refine find_finRange (by simp [reached, concerns]) fun d less => ?_
  by_cases at' : (s.port p).teardown.nextChannel ≤ d.val
  · simp [passed d at' less]
  · simp [at']

/-! ## Role steps (R142) -/

/-- The losing port's side of a reclaim that tells nobody. -/
theorem loses_port (s : State) (p : Port) (b : BufIx) (uses : Bulk → Bool) (f : BufRec → BufRec) :
    (if ((((s.modBuf b f).lowerCharge p).staleWindows p b).port p).engine.bulk.any uses then
      (((s.modBuf b f).lowerCharge p).staleWindows p b).markAbort p
    else ((s.modBuf b f).lowerCharge p).staleWindows p b) =
      (s.modBuf b f).modPort p fun x => x.loses b ((s.port p).engine.bulk.any uses) := by
  unfold State.lowerCharge State.staleWindows State.markAbort
  simp only [modEngine_eq_modPort, modPort_modPort, port_modPort_same, port_modBuf]
  by_cases h : ((s.port p).engine.bulk.any uses) = true
  · rw [if_pos h, h]
    rfl
  · rw [if_neg h, Bool.eq_false_iff.2 h]
    rfl

theorem finish_start_reclaimHolding (s : State) (p : Port) (b : BufIx) : ((Work.start s).reclaimHolding p b).finish =
    ((s.modBuf b fun r => { r with holder := none }).modPort p fun x =>
      x.loses b ((s.port p).engine.bulk.any fun m => m.uses b)).lastUsed b := by
  unfold Work.reclaimHolding
  rw [finish_lastUse, finish_of_owed_nil rfl]
  exact congrArg (fun t : State => t.lastUsed b) (loses_port s p b _ _)

theorem finish_start_reclaimReader (s : State) (p : Port) (b : BufIx) : ((Work.start s).reclaimReader p b).finish =
    ((s.modBuf b fun r => { r with readers := r.readers.filter fun e => e.port != p }).modPort p fun x =>
      x.loses b ((s.port p).engine.bulk.any fun m => m.readsFrom b)).lastUsed b := by
  unfold Work.reclaimReader
  rw [finish_lastUse, finish_of_owed_nil rfl]
  exact congrArg (fun t : State => t.lastUsed b) (loses_port s p b _ _)

theorem finish_map_modTeardown (w : Work) (p : Port) (f : Teardown → Teardown) :
    (w.map fun s => s.modTeardown p f).finish = w.finish.modTeardown p f := by
  have apart : NotesApart fun x => { x with teardown := f x.teardown } := ⟨fun _ _ => rfl, fun _ => rfl⟩
  exact finish_map fun t q r => place_modPort apart t p q r

theorem finish_roleStep_holding {b : BufIx} (found : s.searchRole p = some b) (held : (s.buf b).heldBy p = true) :
    ((Work.start s).roleStep p).finish =
      (((s.modBuf b fun r => { r with holder := none }).modPort p fun x =>
        x.loses b ((s.port p).engine.bulk.any fun m => m.uses b)).lastUsed b).modTeardown p fun t =>
          { t with nextBuffer := b.val + 1 } := by
  unfold Work.roleStep Work.reclaimFound
  simp only [start_state, found, held, if_true]
  rw [finish_map_modTeardown, finish_start_reclaimHolding]

theorem finish_roleStep_reader {b : BufIx} (found : s.searchRole p = some b) (held : (s.buf b).heldBy p = false) :
    ((Work.start s).roleStep p).finish =
      (((s.modBuf b fun r => { r with readers := r.readers.filter fun e => e.port != p }).modPort p fun x =>
        x.loses b ((s.port p).engine.bulk.any fun m => m.readsFrom b)).lastUsed b).modTeardown p fun t =>
          { t with nextBuffer := b.val + 1 } := by
  unfold Work.roleStep Work.reclaimFound
  simp only [start_state, found, held]
  exact (finish_map_modTeardown ..).trans (congrArg (fun t : State => t.modTeardown p _) (finish_start_reclaimReader s p b))

/-- A role step that finds no role goes on as a channel step. -/
theorem roleStep_of_none (none : s.searchRole p = none) :
    (Work.start s).roleStep p = (Work.start (s.modTeardown p fun t => { t with phase := .channels })).channelStep p := by
  unfold Work.roleStep
  simp only [start_state, none]
  rfl

theorem exec_roleStep_granted (h : s.grants (.tu p) .role = true) :
    exec (.roleStep p) s = .next (((Work.start (s.served (.tu p))).roleStep p).finish).settle :=
  congrArg done (tableOp_granted h fun w => w.roleStep p)

/-- A unit that offers a role step is in phase ROLES, and no end step comes first. -/
theorem offers_role (h : s.offer (.tu p) = some .role) : (s.port p).teardown.phase = .roles ∧
    ((s.port p).teardown.endOwed && (s.port p).engine.bulk.any Bulk.stopped) = false := by
  change (s.port p).teardownOffer = some .role at h
  unfold PortState.teardownOffer at h
  cases phase : (s.port p).teardown.phase <;> rw [phase] at h <;> simp only at h
  case roles =>
    split at h
    next => exact nomatch h
    next first => exact ⟨rfl, Bool.eq_false_iff.2 first⟩
  case final =>
    split at h
    · split at h <;> exact nomatch h
    · exact nomatch h
  case channels => split at h <;> exact nomatch h
  all_goals exact nomatch h

/-- A unit that offers a channel step is in phase CHANNELS, and no end step comes first. -/
theorem offers_channel (h : s.offer (.tu p) = some .channel) : (s.port p).teardown.phase = .channels ∧
    ((s.port p).teardown.endOwed && (s.port p).engine.bulk.any Bulk.stopped) = false := by
  change (s.port p).teardownOffer = some .channel at h
  unfold PortState.teardownOffer at h
  cases phase : (s.port p).teardown.phase <;> rw [phase] at h <;> simp only at h
  case channels =>
    split at h
    next => exact nomatch h
    next first => exact ⟨rfl, Bool.eq_false_iff.2 first⟩
  case final =>
    split at h
    · split at h <;> exact nomatch h
    · exact nomatch h
  case roles => split at h <;> exact nomatch h
  all_goals exact nomatch h

/-- The unit of a port whose phase ROLES is over offers a channel step in place of the role step, and every other requester its own. -/
theorem grants_channel_of_role (h : s.grants (.tu p) .role = true) :
    (s.modTeardown p fun t => { t with phase := .channels }).grants (.tu p) .channel = true := by
  obtain ⟨high, offer⟩ := grants_offer h
  obtain ⟨phase, first⟩ := offers_role offer
  have own : (s.modTeardown p fun t => { t with phase := .channels }).offer (.tu p) = some .channel := by
    change ((s.modTeardown p fun t => { t with phase := .channels }).port p).teardownOffer = _
    rw [State.modTeardown, port_modPort_same]
    exact if_neg (by rw [first]; exact Bool.false_ne_true)
  have others (r : Requester) :
      ((s.modTeardown p fun t => { t with phase := .channels }).offer r).isSome = (s.offer r).isSome := by
    cases r with
    | re q =>
      unfold State.offer State.modTeardown State.sessionState
      simp only [port_modPort]
      split <;> rfl
    | tu q =>
      by_cases same : q = p
      · subst same
        rw [own, offer]
        rfl
      · unfold State.offer State.modTeardown
        simp only [port_modPort_other s same]
    | lm => rfl
  have choice : (s.modTeardown p fun t => { t with phase := .channels }).tableChoice = s.tableChoice := by
    unfold State.tableChoice
    rw [show (fun r => ((s.modTeardown p fun t => { t with phase := .channels }).offer r).isSome) = fun r => (s.offer r).isSome from
      funext others]
    rfl
  unfold State.grants at h ⊢
  rw [choice, own]
  rw [Bool.and_eq_true_iff] at h ⊢
  exact ⟨h.1, beq_self_eq_true _⟩

theorem exec_channelStep_granted (h : s.grants (.tu p) .channel = true) :
    exec (.channelStep p) s = .next (((Work.start (s.served (.tu p))).channelStep p).finish).settle := by
  obtain ⟨phase, _⟩ := offers_channel (grants_offer h).2
  have going : s.rolesOver p = false := by
    unfold State.rolesOver
    rw [phase]
    rfl
  exact congrArg done ((if_neg (by rw [going]; exact Bool.false_ne_true)).trans (tableOp_granted h fun w => w.channelStep p))

/-- In phase ROLES with no role left, the role step and the channel step are one, that of phase CHANNELS. -/
theorem roleStep_goes_on (h : s.grants (.tu p) .role = true) (none : s.searchRole p = none) :
    exec (.roleStep p) s = exec (.channelStep p) s ∧
      exec (.channelStep p) s = exec (.channelStep p) (s.modTeardown p fun t => { t with phase := .channels }) := by
  obtain ⟨phase, _⟩ := offers_role (grants_offer h).2
  have ended : s.rolesOver p = true := by
    unfold State.rolesOver
    rw [phase, none]
    rfl
  have same : exec (.channelStep p) s = exec (.roleStep p) s := congrArg done (if_pos ended)
  refine ⟨same.symm, ?_⟩
  rw [same, exec_roleStep_granted h, exec_channelStep_granted (grants_channel_of_role h)]
  exact congrArg (fun w : Work => done w.finish) (roleStep_of_none (s := s.served (.tu p)) none)

end
end Sys2Proof.Machine
end

section
/-! The channel steps of a teardown: O46 (R61, R62, R65, R142, R144). -/

namespace Sys2Proof.Machine

/-! ## The last-use rule of one buffer, and updates of others -/

theorem modBuf_modBuf_other (s : State) {b d : BufIx} (h : d ≠ b) (f g : BufRec → BufRec) :
    (s.modBuf d f).modBuf b g = (s.modBuf b g).modBuf d f := by
  refine state_ext_get (fun _ => rfl) (fun e => ?_) (fun _ => rfl) rfl
  by_cases hd : e = d
  · subst hd
    rw [buf_modBuf_other _ h, buf_modBuf_same, buf_modBuf_same, buf_modBuf_other _ h]
  · by_cases hb : e = b
    · subst hb
      rw [buf_modBuf_same, buf_modBuf_other _ hd, buf_modBuf_other _ hd, buf_modBuf_same]
    · rw [buf_modBuf_other _ hb, buf_modBuf_other _ hd, buf_modBuf_other _ hd, buf_modBuf_other _ hb]

theorem lastUsed_modBuf_other (s : State) {b d : BufIx} (h : d ≠ b) (f : BufRec → BufRec) :
    (s.modBuf d f).lastUsed b = (s.lastUsed b).modBuf d f := by
  have handed (t : State) (q : Port) : (t.modBuf d f).handsTo q b = (t.handsTo q b).modBuf d f := by
    unfold State.handsTo
    rw [buf_modBuf_other _ (Ne.symm h), port_modBuf, modBuf_setClaimWait_comm, modBuf_modBuf_other _ h, modPort_modBuf_comm,
      modBuf_claimWait]
  have below : (s.modBuf d f).belowQuota = s.belowQuota := rfl
  unfold State.lastUsed State.entersFree
  rw [buf_modBuf_other _ (Ne.symm h), modBuf_claimWait, below]
  split
  · split
    · exact (congrArg (fun t : State => t.handsTo _ b) (modBuf_modBuf_other s h ..)).trans (handed ..)
    · exact congrArg (fun t : State => t.setFreeList _) (modBuf_modBuf_other s h ..)
  · rfl

theorem lastUsed_modChan (s : State) (b : BufIx) (c : ChanIx) (f : Chan → Chan) :
    (s.modChan c f).lastUsed b = (s.lastUsed b).modChan c f := by
  unfold State.lastUsed State.entersFree
  rw [buf_modChan, show (s.modChan c f).belowQuota = s.belowQuota from rfl, show (s.modChan c f).claimWait = s.claimWait from rfl]
  split
  · split <;> rfl
  · rfl

theorem lastUsed_buf_other (s : State) {b d : BufIx} (h : d ≠ b) : (s.lastUsed b).buf d = s.buf d := by
  have through : ((Work.start s).lastUse b).finish = s.lastUsed b := finish_lastUse ..
  rw [← through, finish_buf, lastUse_buf_other h, start_state]

theorem lastUsed_leaveQueue (s : State) {b d : BufIx} (h : d ≠ b) (c : ChanIx) :
    (s.leaveQueue c d).lastUsed b = (s.lastUsed b).leaveQueue c d := by
  unfold State.leaveQueue
  rw [lastUsed_modBuf_other _ h, lastUsed_modChan]

theorem lastUsed_leavesQueue {l : List BufIx} {b : BufIx} (h : b ∉ l) (s : State) (c : ChanIx) :
    (l.foldl (fun t d => t.leaveQueue c d) s).lastUsed b = l.foldl (fun t d => t.leaveQueue c d) (s.lastUsed b) := by
  induction l generalizing s with
  | nil => rfl
  | cons d l ih =>
    rw [List.mem_cons, not_or] at h
    rw [List.foldl_cons, List.foldl_cons, ih h.2, lastUsed_leaveQueue s (Ne.symm h.1)]

theorem foldl_lastUsed_modChan (l : List BufIx) (s : State) (c : ChanIx) (f : Chan → Chan) :
    l.foldl State.lastUsed (s.modChan c f) = (l.foldl State.lastUsed s).modChan c f := by
  induction l generalizing s with
  | nil => rfl
  | cons b l ih => rw [List.foldl_cons, List.foldl_cons, lastUsed_modChan, ih]

/-! ## A port leaves a FANOUT channel (R65) -/

/-- An entry with nothing pending leaves the queue, by the last-use rule. -/
def State.entryDrops (s : State) (c : ChanIx) (b : BufIx) : State :=
  if (s.buf b).pending = 0 then (s.leaveQueue c b).lastUsed b else s

theorem entryDrops_buf_other (s : State) (c : ChanIx) {b d : BufIx} (h : d ≠ b) : (s.entryDrops c b).buf d = s.buf d := by
  unfold State.entryDrops
  split
  · rw [lastUsed_buf_other _ h]
    exact buf_modBuf_other _ h _
  · rfl

/-- The entries with nothing pending may all leave the queue before the last-use rule takes their buffers. -/
theorem foldl_entryDrops (c : ChanIx) : ∀ {l : List BufIx}, l.Nodup → ∀ s : State, l.foldl (fun t b => t.entryDrops c b) s =
    (l.filter fun b => (s.buf b).pending = 0).foldl State.lastUsed
      ((l.filter fun b => (s.buf b).pending = 0).foldl (fun t b => t.leaveQueue c b) s)
  | [], _, _ => rfl
  | b :: l, distinct, s => by
    obtain ⟨off, distinct⟩ := List.nodup_cons.1 distinct
    have others : (l.filter fun d => ((s.entryDrops c b).buf d).pending = 0) = l.filter fun d => (s.buf d).pending = 0 :=
      List.filter_congr fun d hd => by
        have other : d ≠ b := fun same => off (same ▸ hd)
        rw [entryDrops_buf_other s c other]
    have away : b ∉ l.filter fun d => (s.buf d).pending = 0 := fun h => off (List.mem_of_mem_filter h)
    rw [List.foldl_cons, foldl_entryDrops c distinct, others]
    by_cases gone : (s.buf b).pending = 0
    · rw [List.filter_cons_of_pos (by simpa using gone), List.foldl_cons, List.foldl_cons, lastUsed_leavesQueue away,
        State.entryDrops, if_pos gone]
    · rw [List.filter_cons_of_neg (by simpa using gone), State.entryDrops, if_neg gone]

theorem finish_foldl_lastUse (c : ChanIx) (l : List BufIx) (w : Work) :
    (l.foldl (fun w b => if (w.state.buf b).pending = 0 then (w.map fun s => s.leaveQueue c b).lastUse b else w) w).finish =
      l.foldl (fun t b => t.entryDrops c b) w.finish := by
  induction l generalizing w with
  | nil => rfl
  | cons b l ih =>
    rw [List.foldl_cons, List.foldl_cons, ih, State.entryDrops, finish_buf]
    split
    · rw [finish_lastUse, finish_map fun s p r => place_leaveQueue s c b p r]
    · rfl

theorem foldl_modBuf_buf (f : BufRec → BufRec) (d : BufIx) : ∀ {l : List BufIx}, l.Nodup → ∀ s : State,
    (l.foldl (fun t b => t.modBuf b f) s).buf d = if d ∈ l then f (s.buf d) else s.buf d
  | [], _, _ => rfl
  | b :: l, distinct, s => by
    obtain ⟨off, distinct⟩ := List.nodup_cons.1 distinct
    rw [List.foldl_cons, foldl_modBuf_buf f d distinct, buf_modBuf]
    by_cases same : d = b
    · subst same
      simp [off]
    · simp [same]

theorem foldl_modBuf_rest (f : BufRec → BufRec) (l : List BufIx) (s : State) :
    l.foldl (fun t b => t.modBuf b f) s = { s with buffers := (l.foldl (fun t b => t.modBuf b f) s).buffers } := by
  induction l generalizing s with
  | nil => rfl
  | cons b l ih =>
    rw [List.foldl_cons, ih]
    rfl

/-- Entries leave a queue one after the other. -/
theorem foldl_leaveQueue (c : ChanIx) (l : List BufIx) (s : State) : l.foldl (fun t b => t.leaveQueue c b) s =
    l.foldl (fun t b => t.modBuf b fun r => { r with channel := none })
      (s.modChan c fun x => { x with queue := l.foldl List.erase x.queue }) := by
  induction l generalizing s with
  | nil => exact (modChan_id s c rfl).symm
  | cons b l ih =>
    rw [List.foldl_cons, List.foldl_cons, ih, State.leaveQueue, modChan_modBuf_comm, modChan_modChan]
    rfl

theorem foldl_modBuf_modChan (f : BufRec → BufRec) (l : List BufIx) (s : State) (c : ChanIx) (g : Chan → Chan) :
    (l.foldl (fun t b => t.modBuf b f) s).modChan c g = l.foldl (fun t b => t.modBuf b f) (s.modChan c g) := by
  induction l generalizing s with
  | nil => rfl
  | cons b l ih => rw [List.foldl_cons, List.foldl_cons, ih, modChan_modBuf_comm]

theorem foldl_lastUsed_chan (l : List BufIx) (s : State) (c : ChanIx) : (l.foldl State.lastUsed s).chan c = s.chan c := by
  induction l generalizing s with
  | nil => rfl
  | cons b l ih =>
    have through : ((Work.start s).lastUse b).finish = s.lastUsed b := finish_lastUse ..
    rw [List.foldl_cons, ih, ← through, finish_chan, lastUse_chan, start_state]

theorem state_eq_of_buf {s t u : State} (hs : s = { u with buffers := s.buffers }) (ht : t = { u with buffers := t.buffers })
    (h : ∀ b, s.buf b = t.buf b) : s = t := by
  have same : s.buffers = t.buffers := vector_ext_get h
  rw [hs, ht, same]

/-- The record of an entry once a destination is gone. -/
def BufRec.withoutPending (r : BufRec) (p : Port) : BufRec :=
  { r with pending := maskErase r.pending p, channel := if maskErase r.pending p = 0 then none else r.channel }

/-- The entries of a channel left with nothing pending once a destination is gone. -/
def State.goneWith (s : State) (c : ChanIx) (p : Port) : List BufIx :=
  (s.chan c).queue.filter fun b => maskErase (s.buf b).pending p = 0

/-- A channel that stays open without a destination. -/
def State.chanWithout (s : State) (c : ChanIx) (p : Port) : Chan :=
  { status := (s.chan c).status.withoutDestination p
    queue := (s.chan c).queue.filter fun b => maskErase (s.buf b).pending p ≠ 0
    takeWaiters := maskErase (s.chan c).takeWaiters p }

/-- Erasing the pending bit from each entry and then dropping those left with none is one update of each entry. -/
theorem leaveQueue_pendingErased {s : State} {c : ChanIx} {p : Port} (distinct : (s.chan c).queue.Nodup) :
    (s.goneWith c p).foldl (fun t b => t.leaveQueue c b)
      ((s.chan c).queue.foldl (fun t b => t.modBuf b fun r => { r with pending := maskErase r.pending p })
        (s.modChan c fun x =>
          { x with status := x.status.withoutDestination p, takeWaiters := maskErase x.takeWaiters p })) =
      (s.chan c).queue.foldl (fun t b => t.modBuf b fun r => r.withoutPending p) (s.modChan c fun _ => s.chanWithout c p) := by
  have goneDistinct : (s.goneWith c p).Nodup := distinct.filter _
  have queue : (s.goneWith c p).foldl List.erase (s.chan c).queue =
      (s.chan c).queue.filter fun b => maskErase (s.buf b).pending p ≠ 0 := by
    rw [← List.diff_eq_foldl, distinct.sdiff_eq_filter]
    exact List.filter_congr fun b hb => by simp [State.goneWith, hb]
  rw [foldl_leaveQueue, foldl_modBuf_modChan]
  simp only [modChan_modChan]
  rw [modChan_congr s c (g := fun _ => s.chanWithout c p) (by unfold State.chanWithout; rw [← queue])]
  refine state_eq_of_buf ((foldl_modBuf_rest ..).trans ?_) (foldl_modBuf_rest ..) fun b => ?_
  · rw [foldl_modBuf_rest _ (s.chan c).queue]
  rw [foldl_modBuf_buf _ b goneDistinct, foldl_modBuf_buf _ b distinct, foldl_modBuf_buf _ b distinct, buf_modChan]
  by_cases entry : b ∈ (s.chan c).queue
  · by_cases gone : maskErase (s.buf b).pending p = 0#4
    · simp [State.goneWith, entry, gone, BufRec.withoutPending]
    · simp [State.goneWith, entry, gone, BufRec.withoutPending]
  · simp [State.goneWith, entry]

/-- The pool once a port has left the pending sets of a channel and the channel's record is `x`. -/
def State.destinationGone (s : State) (c : ChanIx) (p : Port) (x : Chan) : State :=
  (s.goneWith c p).foldl State.lastUsed
    ((s.chan c).queue.foldl (fun t b => t.modBuf b fun r => r.withoutPending p) (s.modChan c fun _ => x))

theorem destinationGone_modChan (s : State) (c : ChanIx) (p : Port) (x y : Chan) :
    (s.destinationGone c p x).modChan c (fun _ => y) = s.destinationGone c p y := by
  unfold State.destinationGone
  rw [← foldl_lastUsed_modChan, foldl_modBuf_modChan, modChan_modChan]

theorem destinationGone_chan (s : State) (c : ChanIx) (p : Port) (x : Chan) : (s.destinationGone c p x).chan c = x := by
  have through := congrArg (fun t : State => t.chan c) (destinationGone_modChan s c p x x)
  rw [← through]
  exact chan_modChan_same ..

/-- The step of R65 up to the close of a channel left with no destination. -/
theorem finish_removePending {s : State} {c : ChanIx} {p : Port} (distinct : (s.chan c).queue.Nodup) :
    (((Work.start s).map fun s => s.modChan c fun x =>
      { x with status := x.status.withoutDestination p, takeWaiters := maskErase x.takeWaiters p }).removePending c p).finish =
      s.destinationGone c p (s.chanWithout c p) := by
  have queue : ((s.modChan c fun x =>
      { x with status := x.status.withoutDestination p, takeWaiters := maskErase x.takeWaiters p }).chan c).queue =
        (s.chan c).queue := by
    rw [chan_modChan_same]
  unfold State.destinationGone
  rw [← leaveQueue_pendingErased distinct]
  refine (finish_foldl_lastUse ..).trans ?_
  rw [finish_of_owed_nil rfl]
  simp only [map_state, start_state]
  rw [queue, foldl_entryDrops c distinct]
  have gone : ((s.chan c).queue.filter fun b => ((((s.chan c).queue.foldl
      (fun t b => t.modBuf b fun r => { r with pending := maskErase r.pending p }) (s.modChan c fun x =>
        { x with status := x.status.withoutDestination p, takeWaiters := maskErase x.takeWaiters p })).buf b).pending = 0)) =
      s.goneWith c p :=
    List.filter_congr fun b hb => by rw [foldl_modBuf_buf _ b distinct, if_pos hb, buf_modChan]
  rw [gone]

/-- The step that removes a port from a FANOUT channel, up to the unit's own registers. -/
theorem finish_removeDestination {s : State} {c : ChanIx} {p : Port} {u : ChanSetup} (setup : (s.chan c).setup = some u)
    (distinct : (s.chan c).queue.Nodup) : ((Work.start s).removeDestination c p).finish =
      s.destinationGone c p (if maskErase u.destinations p = 0 then Chan.reset else s.chanWithout c p) := by
  have left : (s.chanWithout c p).destinations = maskErase u.destinations p := by
    refine destinations_of_setup (u := { u with destinations := maskErase u.destinations p }) ?_
    revert setup
    unfold State.chanWithout Chan.setup ChanStatus.withoutDestination
    cases (s.chan c).status with
    | closed => exact fun h => nomatch h
    | opened v => exact fun h => by cases h; rfl
    | closing v q => exact fun h => by cases h; rfl
  unfold Work.removeDestination
  simp only
  rw [← finish_chan, finish_removePending distinct, destinationGone_chan, left]
  split
  · refine (finish_map fun s q r => place_modChan s c (fun _ => Chan.reset) q r).trans ?_
    rw [finish_removePending distinct]
    exact destinationGone_modChan ..
  · exact finish_removePending distinct

/-! ## The cases of a channel step (R144) -/

section
variable {s : State} {p : Port} {c : ChanIx}

theorem closingUnder_iff : s.closingUnder c p = true ↔ (s.chan c).closer = some p := by
  rw [State.closingUnder, beq_iff_eq]

theorem channelInHand_of_ended (other : (s.chan c).closer ≠ some p) :
    ((Work.start s).channelInHand p c).finish = s.modTeardown p fun t => t.letGo c := by
  unfold Work.channelInHand
  rw [start_state, Bool.eq_false_iff.2 fun h => other (closingUnder_iff.1 h)]
  exact finish_of_owed_nil rfl

section
variable (closer : (s.chan c).closer = some p)
include closer

theorem channelInHand_of_empty (empty : (s.chan c).queue = []) :
    ((Work.start s).channelInHand p c).finish = (s.lastCloseStep c p).modTeardown p fun t => t.letGo c := by
  unfold Work.channelInHand
  simp only [start_state, closingUnder_iff.2 closer, empty]
  exact finish_of_owed_nil rfl

theorem channelInHand_of_entry {b : BufIx} {rest : List BufIx} (queue : (s.chan c).queue = b :: rest) :
    (Work.start s).channelInHand p c = (Work.start s).disposeEntry c b := by
  unfold Work.channelInHand
  simp only [start_state, closingUnder_iff.2 closer, queue]
  rfl

end

theorem channelStep_of_inHand (inHand : (s.port p).teardown.inHand = some c) :
    (Work.start s).channelStep p = (Work.start s).channelInHand p c := by
  unfold Work.channelStep
  rw [start_state, inHand]

theorem channelStep_of_closing (inHand : (s.port p).teardown.inHand = none) (found : s.searchChannel p = some c)
    (closer : (s.chan c).closer = some p) : (Work.start s).channelStep p =
      (Work.start (s.modTeardown p fun t => { t with inHand := some c, inHandTakenOver := false })).channelInHand p c := by
  unfold Work.channelStep Work.channelFound
  simp only [start_state, inHand, found, closingUnder_iff.2 closer]
  rfl

theorem channelStep_of_fanout (inHand : (s.port p).teardown.inHand = none) (found : s.searchChannel p = some c)
    (other : (s.chan c).closer ≠ some p) : (Work.start s).channelStep p =
      ((Work.start s).removeDestination c p).map fun s => s.modTeardown p fun t => { t with nextChannel := c.val + 1 } := by
  unfold Work.channelStep Work.channelFound
  simp only [start_state, inHand, found, Bool.eq_false_iff.2 fun h => other (closingUnder_iff.1 h)]
  rfl

/-- The channel step that finds nothing left, with an end step owed. -/
theorem channelStep_done (inHand : (s.port p).teardown.inHand = none)
    (none : ∀ c : ChanIx, (s.port p).teardown.nextChannel ≤ c.val → (s.chan c).concerns p = false)
    (owed : (s.port p).teardown.endOwed = true) :
    ((Work.start s).channelStep p).finish = s.modTeardown p fun t => { t with phase := .final } := by
  unfold Work.channelStep Work.channelsDone
  simp only [start_state, inHand, searchChannel_none none, owed]
  exact finish_of_owed_nil rfl

theorem concerns_of_closer (closer : (s.chan c).closer = some p) : (s.chan c).concerns p = true := by
  rw [Chan.concerns, closer, beq_self_eq_true, Bool.true_or]

theorem concerns_of_fanout {u : ChanSetup} (setup : (s.chan c).setup = some u) (fanout : u.kind = .fanout)
    (lists : maskHas u.destinations p = true) : (s.chan c).concerns p = true := by
  rw [Chan.concerns, setup, Option.any_some, fanout, lists]
  exact Bool.or_true _

/-- A disposal in a channel step, by what becomes of the entry's buffer. -/
theorem disposeEntry_finish {b : BufIx} {rest : List BufIx} (queue : (s.chan c).queue = b :: rest) :
    ((s.buf b).readers ≠ [] → ((Work.start s).disposeEntry c b).finish = s.entryLeaves c b) ∧
      (∀ o, (s.buf b).readers = [] → (s.buf b).origin = some o → s.attached o = true → (s.port o).charge < (s.port o).quota →
        ((Work.start s).disposeEntry c b).finish = s.entryReturned c b o) ∧
      ((s.buf b).readers = [] →
        (∀ o, (s.buf b).origin = some o → s.attached o = false ∨ (s.port o).quota ≤ (s.port o).charge) →
          ((Work.start s).disposeEntry c b).finish = s.entryDiscarded c b) :=
  ⟨fun readers => disposeEntry_kept queue (disposalAt_kept queue readers),
    fun o readers origin attached below =>
      disposeEntry_returned queue (disposalAt_returned queue readers origin attached ((belowQuota_iff s o).2 below)) origin,
    fun readers origin => disposeEntry_discarded queue (disposalAt_discarded queue readers fun o ho =>
      (origin o ho).imp_right fun full => (not_belowQuota_iff s o).2 full)⟩

end

/-! ## The obligation -/

/-- The state that a channel step on a channel in hand acts on: one that the search found is taken in hand first. -/
def State.handBase (s : State) (p : Port) (c : ChanIx) : State :=
  if (s.port p).teardown.inHand = none then
    (s.served (.tu p)).modTeardown p fun t => { t with inHand := some c, inHandTakenOver := false }
  else s.served (.tu p)

section
variable (s : State) (p : Port) (c : ChanIx)

theorem handBase_cases : s.handBase p c = s.served (.tu p) ∨ s.handBase p c =
    (s.served (.tu p)).modTeardown p fun t => { t with inHand := some c, inHandTakenOver := false } :=
  (ite_eq_or_eq ..).symm

theorem handBase_chan (d : ChanIx) : (s.handBase p c).chan d = s.chan d := by
  rcases handBase_cases s p c with base | base <;> rw [base] <;> rfl

theorem handBase_buf (b : BufIx) : (s.handBase p c).buf b = s.buf b := by
  rcases handBase_cases s p c with base | base <;> rw [base] <;> rfl

/-- Taking a channel in hand changes a port's Teardown Unit alone. -/
theorem handBase_port (q : Port) : ∃ t, (s.handBase p c).port q = { s.port q with teardown := t } := by
  rcases handBase_cases s p c with base | base
  · exact ⟨_, by rw [base]; rfl⟩
  · by_cases same : q = p
    · subst same
      exact ⟨_, by rw [base]; exact port_modPort_same ..⟩
    · exact ⟨(s.port q).teardown, by rw [base]; exact port_modPort_other _ same _⟩

theorem handBase_attached (q : Port) : (s.handBase p c).attached q = s.attached q := by
  obtain ⟨t, frame⟩ := handBase_port s p c q
  rw [State.attached, State.sessionState, frame]
  rfl

theorem handBase_charge (q : Port) : ((s.handBase p c).port q).charge = (s.port q).charge := by
  obtain ⟨t, frame⟩ := handBase_port s p c q
  rw [frame]

theorem handBase_quota (q : Port) : ((s.handBase p c).port q).quota = (s.port q).quota := by
  obtain ⟨t, frame⟩ := handBase_port s p c q
  rw [frame]

end

theorem channelStep_of_hand {s : State} {p : Port} {c : ChanIx} {u : ChanSetup}
    (hand : (s.port p).teardown.inHand = some c ∨ (s.port p).teardown.inHand = none ∧ (s.port p).teardown.nextChannel ≤ c.val ∧
      ∀ d : ChanIx, (s.port p).teardown.nextChannel ≤ d.val → d.val < c.val → (s.chan d).concerns p = false)
    (status : (s.chan c).status = .closing u p) :
    (Work.start (s.served (.tu p))).channelStep p = (Work.start (s.handBase p c)).channelInHand p c := by
  have closer : (s.chan c).closer = some p := by rw [Chan.closer, status]
  unfold State.handBase
  rcases hand with inHand | ⟨inHand, reached, passed⟩
  · rw [if_neg (by rw [inHand]; exact nofun)]
    exact channelStep_of_inHand (s := s.served (.tu p)) inHand
  · rw [if_pos inHand]
    exact channelStep_of_closing (s := s.served (.tu p)) inHand
      (searchChannel_some reached (concerns_of_closer closer) passed) closer

/-- Settles O46: the role steps, and the channel steps by the channel in hand or found. -/
theorem roleAndChannelSteps : Obligations.RoleAndChannelSteps := by
  unfold Obligations.RoleAndChannelSteps
  refine ⟨fun p s hg => ⟨fun b reached passed => ⟨fun held => ?_, fun held reads => ?_⟩, fun passed => ?_⟩,
    fun p s c hg => ⟨fun inHand other => ?_, fun u hand status => ⟨fun empty => ?_, fun b rest queue => ?_⟩,
      fun u closer found status other fanout lists distinct => ?_⟩,
    fun p s hg inHand none => ⟨fun owed => ?_, fun owed => ?_⟩⟩
  · have role : (s.buf b).roleOf p = true := by rw [BufRec.roleOf, held, Bool.true_or]
    rw [exec_roleStep_granted hg]
    exact congrArg done (finish_roleStep_holding (s := s.served (.tu p)) (searchRole_some reached role passed) held)
  · have role : (s.buf b).roleOf p = true := by rw [BufRec.roleOf, reads, Bool.or_true]
    rw [exec_roleStep_granted hg]
    exact congrArg done (finish_roleStep_reader (s := s.served (.tu p)) (searchRole_some reached role passed) held)
  · exact roleStep_goes_on hg (searchRole_none fun d reached => passed d reached d.isLt)
  · rw [exec_channelStep_granted hg, channelStep_of_inHand (s := s.served (.tu p)) inHand]
    exact congrArg done (channelInHand_of_ended (s := s.served (.tu p)) other)
  · have closer : (s.chan c).closer = some p := by rw [Chan.closer, status]
    have destinations : (s.chan c).destinations = u.destinations :=
      destinations_of_setup (by rw [Chan.setup, status])
    rw [exec_channelStep_granted hg, channelStep_of_hand hand status,
      channelInHand_of_empty ((handBase_chan s p c c).symm ▸ closer) ((handBase_chan s p c c).symm ▸ empty), State.lastCloseStep,
      handBase_chan, destinations, show (s.handBase p c).attached = s.attached from funext (handBase_attached s p c)]
    rfl
  · have closer : ((s.handBase p c).chan c).closer = some p := by rw [handBase_chan, Chan.closer, status]
    have queue' : ((s.handBase p c).chan c).queue = b :: rest := by rw [handBase_chan, queue]
    have step : exec (.channelStep p) s = .next (((Work.start (s.handBase p c)).disposeEntry c b).finish).settle := by
      rw [exec_channelStep_granted hg, channelStep_of_hand hand status, channelInHand_of_entry closer queue']
    obtain ⟨kept, returned, discarded⟩ := disposeEntry_finish queue'
    simp only [handBase_buf, handBase_attached, handBase_charge, handBase_quota] at kept returned discarded
    rw [step]
    exact ⟨fun readers => congrArg done (kept readers),
      fun o readers origin attached below => congrArg done (returned o readers origin attached below),
      fun readers origin => congrArg done (discarded readers origin)⟩
  · obtain ⟨inHand, reached, passed⟩ := found
    have setup : (s.chan c).setup = some u := by
      rw [Chan.setup, status]
      cases closer <;> rfl
    have other' : (s.chan c).closer ≠ some p := by
      rw [Chan.closer, status]
      cases closer with
      | none => exact nofun
      | some q => exact other
    rw [exec_channelStep_granted hg, channelStep_of_fanout (s := s.served (.tu p)) inHand
      (searchChannel_some reached (concerns_of_fanout setup fanout lists) passed) other', finish_map_modTeardown,
      finish_removeDestination (s := s.served (.tu p)) setup distinct]
    unfold State.destinationGone State.chanWithout
    have chan : ((s.served (.tu p)).chan c).status = (s.chan c).status := rfl
    cases closer <;> rw [chan, status] <;> rfl
  · rw [exec_channelStep_granted hg]
    exact congrArg done (channelStep_done (s := s.served (.tu p)) inHand none owed)
  · obtain ⟨phase, _⟩ := offers_channel (grants_offer hg).2
    have ends : s.channelsOver p = true := by
      unfold State.channelsOver
      rw [inHand, searchChannel_none none, owed]
      rfl
    rw [exec_finalStep_channels hg phase ends, exec_channelStep_granted hg]

end Sys2Proof.Machine
end

section
/-! The pool's laws port by port and buffer by buffer, and what each part of them looks at: so an operation is checked at the port, the
buffer and the channel that it touches, and frames carry the rest. -/

namespace Sys2Proof.Machine

/-! ## The laws of one port -/

/-- The laws of a port's engine, session, teardown and waits. -/
structure State.ControlLawful (s : State) (p : Port) : Prop where
  engine : (s.port p).engine.Lawful
  session : s.SessionLawful p
  teardown : s.TeardownLawful p
  waiting : (s.port p).engine.state = .waiting ↔ p ∈ s.claimWait ∨ ∃ c, s.TakeWaits p c
  once : ∀ c, s.TakeWaits p c → p ∉ s.claimWait ∧ ∀ d, s.TakeWaits p d → d = c

/-- The law of a port's charge (R10, R12). -/
def State.ChargeLawful (s : State) (p : Port) : Prop :=
  (s.port p).charge = s.roleCount p ∧ (s.port p).charge ≤ (s.port p).quota ∧ (s.port p).quota ≤ 256

/-- The laws of a port's windows and its mover (R90, R113). -/
structure State.RightsLawful (s : State) (p : Port) : Prop where
  windows : ∀ w v, (s.port p).window w = .mapped v →
    (s.buf (handleIx v.handle)).roleOf p = true ∧ (v.mode = .rw → (s.buf (handleIx v.handle)).heldBy p = true)
  mover : ∀ m ∈ (s.port p).engine.bulk, m.phase = .moving → m.abort = false →
    (s.buf m.destination.buffer).heldBy p = true ∧ ∀ r ∈ m.source, (s.buf r.buffer).roleOf p = true

/-- All the laws of one port. -/
structure State.PortLawful (s : State) (p : Port) : Prop where
  control : s.ControlLawful p
  charge : s.ChargeLawful p
  rights : s.RightsLawful p

/-! ## The laws of one buffer -/

/-- What R1 and R2 say of the roles and the pending set of one record. -/
structure BufRec.RolesLawful (r : BufRec) : Prop where
  held : r.holder.isSome = true → r.readers = [] ∧ r.pending = 0
  readers : (r.readers.map Role.port).Nodup
  pending : ∀ e ∈ r.readers, maskHas r.pending e.port = false
  length : r.length ≤ 512

/-- A buffer stands in the queue that its channel field names, with destinations of that channel pending (R1, R44). -/
structure State.Queued (s : State) (b : BufIx) : Prop where
  channel : (s.buf b).channel.isSome = true ↔ (s.buf b).pending ≠ 0
  stands : ∀ c, b ∈ (s.chan c).queue ↔ (s.buf b).channel = some c
  pending : ∀ c, (s.buf b).channel = some c → (s.buf b).pending &&& ~~~(s.chan c).destinations = 0

/-- A buffer is on the Free List exactly when it is FREE, and in the queue that its record names. -/
structure State.Linked (s : State) (b : BufIx) : Prop extends s.Queued b where
  free : b ∈ s.freeList ↔ (s.buf b).state = .free

/-- The pool's laws, but for where the buffers of a list stand. -/
structure State.PoolBut (E : List BufIx) (s : State) : Prop where
  ports : ∀ p, s.PortLawful p
  claims : s.claimWait.Nodup
  records : ∀ b, (s.buf b).RolesLawful
  channels : ∀ c, (s.chan c).Lawful
  frees : s.freeList.Nodup
  linked : ∀ b, b ∉ E → s.Linked b
  bulk : s.BulkLawful

theorem poolBut_nil {s : State} : s.PoolBut [] ↔ s.PoolLawful := by
  constructor
  · intro h
    exact
      { engines := fun p => (h.ports p).control.engine
        sessions := fun p => (h.ports p).control.session
        teardowns := fun p => (h.ports p).control.teardown
        waits := ⟨h.claims, fun p => (h.ports p).control.waiting, fun p => (h.ports p).control.once⟩
        buffers := fun b =>
          have linked := h.linked b List.not_mem_nil
          ⟨(h.records b).held, (h.records b).readers, (h.records b).pending, linked.channel, (h.records b).length⟩
        freeList := ⟨h.frees, fun b => (h.linked b List.not_mem_nil).free⟩
        channels := h.channels
        queues := ⟨fun b => (h.linked b List.not_mem_nil).stands, fun b => (h.linked b List.not_mem_nil).pending⟩
        charges := fun p => (h.ports p).charge
        bulk := h.bulk
        windows := fun p => (h.ports p).rights.windows
        movers := fun p => (h.ports p).rights.mover }
  · intro h
    exact
      { ports := fun p =>
          ⟨⟨h.engines p, h.sessions p, h.teardowns p, h.waits.waiting p, h.waits.once p⟩, h.charges p, h.windows p, h.movers p⟩
        claims := h.waits.nodup
        records := fun b => ⟨(h.buffers b).held, (h.buffers b).readers, (h.buffers b).pending, (h.buffers b).length⟩
        channels := h.channels
        frees := h.freeList.nodup
        linked := fun b _ => ⟨⟨(h.buffers b).channel, h.queues.stands b, h.queues.pending b⟩, h.freeList.free b⟩
        bulk := h.bulk }

theorem State.PoolBut.weaken {s : State} {E F : List BufIx} (h : s.PoolBut E) (sub : ∀ b ∈ E, b ∈ F) : s.PoolBut F :=
  { h with linked := fun b off => h.linked b fun mem => off (sub b mem) }

/-- The laws stand again for a buffer whose place has been set right. -/
theorem State.PoolBut.close {s : State} {E : List BufIx} {b : BufIx} (h : s.PoolBut (b :: E)) (linked : s.Linked b) : s.PoolBut E :=
  { h with
    linked := fun d off => by
      by_cases same : d = b
      · exact same ▸ linked
      · exact h.linked d fun mem => (List.mem_cons.1 mem).elim same off }

/-! ## Frames of the control laws -/

/-- What a channel that changes from `x` to `y` leaves a port as the port's laws look at it. -/
structure Chan.SeenBy (p : Port) (x y : Chan) : Prop where
  waits : maskHas y.takeWaiters p = maskHas x.takeWaiters p
  lists : maskHas y.destinations p = true → maskHas x.destinations p = true
  unicast : y.unicastTo p = true → x.unicastTo p = true
  concerns : y.concerns p = true → x.concerns p = true
  closer : x.closer = some p → y.unicastTo p = true ∨ y.concerns p = true → y.closer = some p

theorem seenBy_refl (p : Port) (x : Chan) : x.SeenBy p x := ⟨rfl, id, id, id, fun h _ => h⟩

/-- A channel whose status stays, seen by a port whose wait stays. -/
theorem seenBy_of_status {p : Port} {x y : Chan} (status : y.status = x.status)
    (waits : maskHas y.takeWaiters p = maskHas x.takeWaiters p) : x.SeenBy p y := by
  have setup : y.setup = x.setup := by rw [Chan.setup, Chan.setup, status]
  have closer : y.closer = x.closer := by rw [Chan.closer, Chan.closer, status]
  refine ⟨waits, fun h => ?_, fun h => ?_, fun h => ?_, fun h _ => closer.trans h⟩
  · rwa [Chan.destinations, setup] at h
  · rwa [Chan.unicastTo, setup] at h
  · rwa [Chan.concerns, setup, closer] at h

/-- A change of the state after which a port's control laws still stand: the port's session and teardown stay, its engine changes only
within its state, request and the presence of a mover, and nothing new concerns it. -/
structure State.ControlFrame (s t : State) (p : Port) : Prop where
  session : t.sessionState p = s.sessionState p
  teardown : (t.port p).teardown = (s.port p).teardown
  engine : (t.port p).engine.Lawful
  state : (t.port p).engine.state = (s.port p).engine.state
  request : (t.port p).engine.request = (s.port p).engine.request
  mover : (t.port p).engine.bulk.isSome = (s.port p).engine.bulk.isSome
  windowA : (s.port p).windowA = .unmapped → (t.port p).windowA = .unmapped
  windowB : (s.port p).windowB = .unmapped → (t.port p).windowB = .unmapped
  roles : ∀ b, (t.buf b).roleOf p = true → (s.buf b).roleOf p = true
  claims : p ∈ t.claimWait ↔ p ∈ s.claimWait
  chans : ∀ c, (s.chan c).SeenBy p (t.chan c)

section
variable {s t : State} {p : Port}

theorem takeWaits_frame (chans : ∀ c, (s.chan c).SeenBy p (t.chan c)) (c : ChanIx) : t.TakeWaits p c ↔ s.TakeWaits p c := by
  rw [State.TakeWaits, State.TakeWaits, (chans c).waits]

theorem not_of_imp {a b : Bool} (h : b = true → a = true) (off : a = false) : b = false :=
  Bool.eq_false_iff.2 fun on => Bool.false_ne_true (off.symm.trans (h on))

theorem State.SessionLawful.frame (f : s.ControlFrame t p) (h : s.SessionLawful p) : t.SessionLawful p where
  admitted := by
    rw [f.session, f.request]
    exact h.admitted
  running := by
    rw [f.session, f.state, f.mover]
    exact h.running
  unmapped off := by
    rw [f.session] at off
    exact ⟨f.windowA (h.unmapped off).1, f.windowB (h.unmapped off).2⟩
  noRole off b := not_of_imp (f.roles b) (h.noRole (f.session ▸ off) b)
  noChannel off c := not_of_imp (f.chans c).lists (h.noChannel (f.session ▸ off) c)

theorem State.TeardownLawful.frame (f : s.ControlFrame t p) (h : s.TeardownLawful p) : t.TeardownLawful p where
  runs := by
    rw [f.session, f.teardown]
    exact h.runs
  start := by
    rw [f.teardown]
    exact h.start
  fenced := by
    rw [f.teardown, f.state, f.request]
    exact h.fenced
  unmapped after := by
    rw [f.teardown] at after
    exact ⟨f.windowA (h.unmapped after).1, f.windowB (h.unmapped after).2⟩
  owed := by
    rw [f.teardown, f.mover]
    exact h.owed
  unicast after c lists := by
    rw [f.teardown] at after
    exact (f.chans c).closer (h.unicast after c ((f.chans c).unicast lists)) (.inl lists)
  rolesBehind := by
    rw [f.teardown]
    exact fun phase b less => not_of_imp (f.roles b) (h.rolesBehind phase b less)
  noRole := by
    rw [f.teardown]
    exact fun phase b => not_of_imp (f.roles b) (h.noRole phase b)
  channelsBehind := by
    rw [f.teardown]
    exact fun after c concerns => h.channelsBehind after c ((f.chans c).concerns concerns)
  inHand := by
    rw [f.teardown]
    exact fun after c hand concerns => (f.chans c).closer (h.inHand after c hand ((f.chans c).concerns concerns)) (.inr concerns)
  found := by
    rw [f.teardown]
    exact fun after own c hand d less => not_of_imp (f.chans d).concerns (h.found after own c hand d less)
  noChannel := by
    rw [f.teardown]
    exact fun phase c => not_of_imp (f.chans c).concerns (h.noChannel phase c)

theorem State.ControlLawful.frame (f : s.ControlFrame t p) (h : s.ControlLawful p) : t.ControlLawful p where
  engine := f.engine
  session := h.session.frame f
  teardown := h.teardown.frame f
  waiting := by
    simp only [takeWaits_frame f.chans, f.state, f.claims]
    exact h.waiting
  once := by
    simp only [takeWaits_frame f.chans, f.claims]
    exact h.once

/-! ## Ports of which nothing is taken apart -/

/-- A port that is not DETACHED and whose teardown, if it has one, is before its fence step. -/
def State.Open (s : State) (p : Port) : Prop := s.sessionState p ≠ .detached ∧ (s.port p).teardown.phase.afterFence = false

theorem afterRoles_of_fence {x : TeardownPhase} (h : x.afterFence = false) : x.afterRoles = false := by
  cases x with
  | idle | fence => rfl
  | roles | channels | final => exact nomatch h

/-- The control laws of an open port say nothing of its roles, windows and channels. -/
theorem controlLawful_of_open (op : t.Open p) (engine : (t.port p).engine.Lawful)
    (admitted : t.sessionState p ≠ .resetting → ∀ r ∈ (t.port p).engine.request, admits (t.sessionState p) r.code = true)
    (running : (t.port p).engine.state = .waiting ∨ (t.port p).engine.bulk.isSome = true →
      t.sessionState p = .active ∨ t.sessionState p = .resetting)
    (runs : (t.port p).teardown.phase = .idle ↔ t.sessionState p ≠ .resetting)
    (start : (t.port p).teardown.phase = .fence → (t.port p).teardown.nextBuffer = 0 ∧ (t.port p).teardown.nextChannel = 0)
    (waiting : (t.port p).engine.state = .waiting ↔ p ∈ t.claimWait ∨ ∃ c, t.TakeWaits p c)
    (once : ∀ c, t.TakeWaits p c → p ∉ t.claimWait ∧ ∀ d, t.TakeWaits p d → d = c) : t.ControlLawful p := by
  obtain ⟨attached, before⟩ := op
  have never {a : Prop} (h : (t.port p).teardown.phase.afterFence = true) : a := absurd (before.symm.trans h) Bool.false_ne_true
  refine ⟨engine, ⟨admitted, running, fun h => absurd h attached, fun h => absurd h attached, fun h => absurd h attached⟩,
    ⟨runs, start, never, never, never, never, fun h => never (by rw [h]; rfl), fun h => ?_, never, never, never,
      fun h => never (by rw [h]; rfl)⟩, waiting, once⟩
  exact absurd ((afterRoles_of_fence before).symm.trans h) Bool.false_ne_true

theorem open_of_waiting (h : s.ControlLawful p) (waiting : (s.port p).engine.state = .waiting) : s.Open p := by
  refine ⟨fun off => ?_, Bool.eq_false_iff.2 fun after => ?_⟩
  · rcases h.session.running (.inl waiting) with active | resetting
    · exact nomatch off.symm.trans active
    · exact nomatch off.symm.trans resetting
  · exact nomatch waiting.symm.trans (h.teardown.fenced after).1

theorem open_of_not_resetting (h : s.ControlLawful p) (attached : s.sessionState p ≠ .detached)
    (up : s.sessionState p ≠ .resetting) : s.Open p :=
  ⟨attached, by rw [h.teardown.runs.2 up]; rfl⟩

theorem open_of_attached (h : s.ControlLawful p) (attached : s.attached p = true) : s.Open p := by
  refine open_of_not_resetting h (not_detached_of_attached attached) fun resetting => ?_
  rw [State.attached, resetting] at attached
  exact absurd attached (by decide)

end

/-! ## Ports that a change leaves alone -/

/-- What the pool's laws look at in a port is the same in both. -/
structure PortState.Alike (x y : PortState) : Prop where
  engine : y.engine = x.engine := by rfl
  windowA : y.windowA = x.windowA := by rfl
  windowB : y.windowB = x.windowB := by rfl
  teardown : y.teardown = x.teardown := by rfl
  session : y.session.state = x.session.state := by rfl
  charge : y.charge = x.charge := by rfl
  quota : y.quota = x.quota := by rfl

theorem PortState.Alike.window {x y : PortState} (h : x.Alike y) (w : WindowSel) : y.window w = x.window w := by
  cases w
  · exact h.windowA
  · exact h.windowB

/-- Two records give a port the same roles. -/
def BufRec.SameRoles (p : Port) (x y : BufRec) : Prop := y.heldBy p = x.heldBy p ∧ y.readBy p = x.readBy p

theorem BufRec.SameRoles.roleOf {p : Port} {x y : BufRec} (h : x.SameRoles p y) : y.roleOf p = x.roleOf p := by
  rw [BufRec.roleOf, BufRec.roleOf, h.1, h.2]

/-- A change of the state that a port's laws do not see. -/
structure State.Beyond (s t : State) (p : Port) : Prop where
  port : (s.port p).Alike (t.port p)
  roles : ∀ b, (s.buf b).SameRoles p (t.buf b)
  claims : p ∈ t.claimWait ↔ p ∈ s.claimWait
  chans : ∀ c, (s.chan c).SeenBy p (t.chan c)

section
variable {s t : State} {p : Port}

theorem roleCount_congr (h : ∀ b, (t.buf b).roleOf p = (s.buf b).roleOf p) : t.roleCount p = s.roleCount p := by
  rw [State.roleCount, State.roleCount, List.filter_congr fun b _ => h b]

theorem State.PortLawful.beyond (f : s.Beyond t p) (h : s.PortLawful p) : t.PortLawful p where
  control := h.control.frame
    { session := f.port.session
      teardown := f.port.teardown
      engine := f.port.engine ▸ h.control.engine
      state := by rw [f.port.engine]
      request := by rw [f.port.engine]
      mover := by rw [f.port.engine]
      windowA := fun off => f.port.windowA.trans off
      windowB := fun off => f.port.windowB.trans off
      roles := fun b => by rw [(f.roles b).roleOf]; exact id
      claims := f.claims
      chans := f.chans }
  charge := by
    rw [State.ChargeLawful, f.port.charge, f.port.quota, roleCount_congr fun b => (f.roles b).roleOf]
    exact h.charge
  rights :=
    { windows := fun w v mapped => by
        rw [(f.roles _).roleOf, (f.roles _).1]
        exact h.rights.windows w v ((f.port.window w).symm.trans mapped)
      mover := by
        intro m
        simp only [(f.roles _).roleOf, (f.roles _).1, f.port.engine]
        exact h.rights.mover m }

end

end Sys2Proof.Machine
end

section
/-! Frames of the pool's laws: updates that a port, a buffer or a bulk count does not see, and the counts of roles and of movers. -/

namespace Sys2Proof.Machine

/-! ## Counts of a filter -/

/-- An element more passes the filter. -/
theorem length_filter_gain {α : Type} {l : List α} (distinct : l.Nodup) {a : α} (mem : a ∈ l) {f g : α → Bool} (off : f a = false)
    (on : g a = true) (others : ∀ x, x ≠ a → g x = f x) : (l.filter g).length = (l.filter f).length + 1 := by
  induction l with
  | nil => exact absurd mem List.not_mem_nil
  | cons x l ih =>
    obtain ⟨away, distinct⟩ := List.nodup_cons.1 distinct
    by_cases same : x = a
    · subst same
      have rest : l.filter g = l.filter f := List.filter_congr fun y hy => others y fun e => away (e ▸ hy)
      rw [List.filter_cons_of_pos on, List.filter_cons_of_neg (by simp [off]), rest, List.length_cons]
    · have found := ih distinct ((List.mem_cons.1 mem).resolve_left (Ne.symm same))
      by_cases passes : f x = true
      · rw [List.filter_cons_of_pos (by rw [others x same, passes]), List.filter_cons_of_pos passes, List.length_cons, List.length_cons,
          found]
      · rw [List.filter_cons_of_neg (by rw [others x same]; exact passes), List.filter_cons_of_neg passes, found]

section
variable {s t : State} {p : Port} {b : BufIx}

/-- A port with a role in a buffer more. -/
theorem roleCount_gain (off : (s.buf b).roleOf p = false) (on : (t.buf b).roleOf p = true)
    (others : ∀ d, d ≠ b → (t.buf d).roleOf p = (s.buf d).roleOf p) : t.roleCount p = s.roleCount p + 1 :=
  length_filter_gain (List.nodup_finRange 256) (List.mem_finRange b) off on others

/-! ## Ports that an update does not reach -/

theorem alike_refl (x : PortState) : x.Alike x := {}

theorem PortState.Alike.trans {x y z : PortState} (h : x.Alike y) (g : y.Alike z) : x.Alike z where
  engine := g.engine.trans h.engine
  windowA := g.windowA.trans h.windowA
  windowB := g.windowB.trans h.windowB
  teardown := g.teardown.trans h.teardown
  session := g.session.trans h.session
  charge := g.charge.trans h.charge
  quota := g.quota.trans h.quota

theorem Chan.SeenBy.trans {x y z : Chan} (h : x.SeenBy p y) (g : y.SeenBy p z) : x.SeenBy p z where
  waits := g.waits.trans h.waits
  lists on := h.lists (g.lists on)
  unicast on := h.unicast (g.unicast on)
  concerns on := h.concerns (g.concerns on)
  closer own on := g.closer (h.closer own (on.imp g.unicast g.concerns)) on

theorem beyond_refl (s : State) (p : Port) : s.Beyond s p := ⟨alike_refl _, fun _ => ⟨rfl, rfl⟩, Iff.rfl, fun _ => seenBy_refl ..⟩

theorem State.Beyond.trans {u : State} (h : s.Beyond t p) (g : t.Beyond u p) : s.Beyond u p where
  port := h.port.trans g.port
  roles b := ⟨(g.roles b).1.trans (h.roles b).1, (g.roles b).2.trans (h.roles b).2⟩
  claims := g.claims.trans h.claims
  chans c := (h.chans c).trans (g.chans c)

theorem beyond_modPort_other {q : Port} (h : p ≠ q) (s : State) (f : PortState → PortState) : s.Beyond (s.modPort q f) p :=
  { beyond_refl s p with port := by rw [port_modPort_other s h]; exact alike_refl _ }

theorem beyond_modPort (s : State) (q p : Port) {f : PortState → PortState} (alike : ∀ x : PortState, x.Alike (f x)) : s.Beyond (s.modPort q f) p :=
  { beyond_refl s p with
    port := by
      rw [port_modPort]
      split
      · rename_i same
        subst same
        exact alike _
      · exact alike_refl _ }

theorem beyond_modBuf (s : State) {f : BufRec → BufRec} (roles : (s.buf b).SameRoles p (f (s.buf b))) : s.Beyond (s.modBuf b f) p :=
  { beyond_refl s p with
    roles := fun d => by
      by_cases same : d = b
      · subst same
        rw [buf_modBuf_same]
        exact roles
      · rw [buf_modBuf_other _ same]
        exact ⟨rfl, rfl⟩ }

theorem beyond_modChan (s : State) {c : ChanIx} {f : Chan → Chan} (seen : (s.chan c).SeenBy p (f (s.chan c))) :
    s.Beyond (s.modChan c f) p :=
  { beyond_refl s p with
    chans := fun d => by
      by_cases same : d = c
      · subst same
        rw [chan_modChan_same]
        exact seen
      · rw [chan_modChan_other _ same]
        exact seenBy_refl .. }

theorem beyond_setFreeList (s : State) (p : Port) (l : List BufIx) : s.Beyond (s.setFreeList l) p := { beyond_refl s p with }

theorem beyond_setClaimWait (s : State) {l : List Port} (same : p ∈ l ↔ p ∈ s.claimWait) : s.Beyond (s.setClaimWait l) p :=
  { beyond_refl s p with claims := same }

theorem beyond_place (s : State) (q : Port) (r : Record) (p : Port) : s.Beyond (s.place q r) p where
  port := by
    obtain ⟨n, frame⟩ := place_port_frame s q p r
    rw [frame]
    exact {}
  roles d := by
    rw [place_buf]
    exact ⟨rfl, rfl⟩
  claims := by rw [place_claimWait]
  chans c := by
    rw [place_chan]
    exact seenBy_refl ..

/-! ## Buffers whose place an update leaves -/

/-- A change of the state that leaves a buffer where it stands. -/
structure State.Leaves (s t : State) (b : BufIx) : Prop where
  record : t.buf b = s.buf b
  free : b ∈ t.freeList ↔ b ∈ s.freeList
  queues : ∀ c, b ∈ (t.chan c).queue ↔ b ∈ (s.chan c).queue
  lists : ∀ c, b ∈ (s.chan c).queue → (t.chan c).destinations = (s.chan c).destinations

theorem leaves_refl (s : State) (b : BufIx) : s.Leaves s b := ⟨rfl, Iff.rfl, fun _ => Iff.rfl, fun _ _ => rfl⟩

theorem State.Leaves.trans {u : State} (h : s.Leaves t b) (g : t.Leaves u b) : s.Leaves u b where
  record := g.record.trans h.record
  free := g.free.trans h.free
  queues c := (g.queues c).trans (h.queues c)
  lists c mem := (g.lists c ((h.queues c).2 mem)).trans (h.lists c mem)

/-- A buffer stays in its queue when its channel field and its pending set stay. -/
theorem State.Queued.congr (h : s.Queued b) (channel : (t.buf b).channel = (s.buf b).channel)
    (pending : (t.buf b).pending = (s.buf b).pending) (queues : ∀ c, b ∈ (t.chan c).queue ↔ b ∈ (s.chan c).queue)
    (lists : ∀ c, b ∈ (s.chan c).queue → (t.chan c).destinations = (s.chan c).destinations) : t.Queued b where
  channel := by
    rw [channel, pending]
    exact h.channel
  stands c := by
    rw [channel, queues]
    exact h.stands c
  pending c on := by
    rw [channel] at on
    rw [pending, lists c ((h.stands c).2 on)]
    exact h.pending c on

theorem State.Queued.leaves (f : s.Leaves t b) (h : s.Queued b) : t.Queued b :=
  h.congr (by rw [f.record]) (by rw [f.record]) f.queues f.lists

theorem State.Linked.leaves (f : s.Leaves t b) (h : s.Linked b) : t.Linked b where
  toQueued := h.toQueued.leaves f
  free := by
    rw [f.free, f.record]
    exact h.free

theorem leaves_modPort (s : State) (q : Port) (f : PortState → PortState) (b : BufIx) : s.Leaves (s.modPort q f) b :=
  { leaves_refl s b with }

theorem leaves_modBuf {d : BufIx} (h : b ≠ d) (s : State) (f : BufRec → BufRec) : s.Leaves (s.modBuf d f) b :=
  { leaves_refl s b with record := buf_modBuf_other _ h f }

theorem leaves_setClaimWait (s : State) (l : List Port) (b : BufIx) : s.Leaves (s.setClaimWait l) b := { leaves_refl s b with }

theorem leaves_setFreeList (s : State) {l : List BufIx} (same : b ∈ l ↔ b ∈ s.freeList) : s.Leaves (s.setFreeList l) b :=
  { leaves_refl s b with free := same }

theorem leaves_modChan (s : State) {c : ChanIx} {f : Chan → Chan} (queue : b ∈ (f (s.chan c)).queue ↔ b ∈ (s.chan c).queue)
    (lists : b ∈ (s.chan c).queue → (f (s.chan c)).destinations = (s.chan c).destinations) : s.Leaves (s.modChan c f) b :=
  { leaves_refl s b with
    queues := fun d => by
      by_cases same : d = c
      · subst same
        rw [chan_modChan_same]
        exact queue
      · rw [chan_modChan_other _ same]
    lists := fun d => by
      by_cases same : d = c
      · subst same
        rw [chan_modChan_same]
        exact lists
      · rw [chan_modChan_other _ same]
        exact fun _ => rfl }

theorem leaves_place (s : State) (q : Port) (r : Record) (b : BufIx) : s.Leaves (s.place q r) b where
  record := place_buf ..
  free := by rw [place_freeList]
  queues c := by rw [place_chan]
  lists c _ := by rw [place_chan]

/-! ## Bulk counts -/

/-- Every port's mover touches the same buffers in both states. -/
def State.SameMovers (s t : State) : Prop :=
  ∀ p, (t.port p).engine.bulk.map Bulk.touches = (s.port p).engine.bulk.map Bulk.touches

theorem sameMovers_refl (s : State) : s.SameMovers s := fun _ => rfl

theorem State.SameMovers.trans {u : State} (h : s.SameMovers t) (g : t.SameMovers u) : s.SameMovers u :=
  fun p => (g p).trans (h p)

theorem sameMovers_modPort (s : State) (p : Port) {f : PortState → PortState}
    (same : (f (s.port p)).engine.bulk.map Bulk.touches = (s.port p).engine.bulk.map Bulk.touches) : s.SameMovers (s.modPort p f) := by
  intro q
  rw [port_modPort]
  split
  · rename_i here
    exact here ▸ same
  · rfl

theorem sameMovers_of_alike (alike : ∀ p, (s.port p).Alike (t.port p)) : s.SameMovers t :=
  fun p => by rw [(alike p).engine]

theorem any_touches (m : Option Bulk) (b : BufIx) :
    (m.any fun m => m.touches.contains b) = (m.map Bulk.touches).any fun l => l.contains b := by
  cases m <;> rfl

theorem bulkUsers_congr (same : s.SameMovers t) (b : BufIx) : t.bulkUsers b = s.bulkUsers b :=
  List.filter_congr fun p _ => by rw [any_touches, any_touches, same p]

theorem State.BulkLawful.congr (same : s.SameMovers t) (counts : ∀ b, (t.buf b).bulkCount = (s.buf b).bulkCount)
    (h : s.BulkLawful) : t.BulkLawful := fun b => by
  rw [counts, bulkUsers_congr same]
  exact h b

/-! ## Updates that reach one port, or one buffer -/

section
variable {E : List BufIx}

/-- A change that no law looks at. -/
theorem State.PoolBut.beyond (h : s.PoolBut E) (ports : ∀ p, s.Beyond t p) (leaves : ∀ b, s.Leaves t b) (claims : t.claimWait.Nodup)
    (channels : ∀ c, (t.chan c).Lawful) (frees : t.freeList.Nodup) : t.PoolBut E where
  ports p := (h.ports p).beyond (ports p)
  claims := claims
  records b := by
    rw [(leaves b).record]
    exact h.records b
  channels := channels
  frees := frees
  linked b off := (h.linked b off).leaves (leaves b)
  bulk := h.bulk.congr (sameMovers_of_alike fun p => (ports p).port) fun b => by rw [(leaves b).record]

/-- A change beside the pool: the records and lists stay, and each port as the laws see it. -/
theorem State.PoolBut.congr (h : s.PoolBut E) (buffers : t.buffers = s.buffers) (freeList : t.freeList = s.freeList)
    (claimWait : t.claimWait = s.claimWait) (channels : t.channels = s.channels) (ports : ∀ p, (s.port p).Alike (t.port p)) :
    t.PoolBut E := by
  have chan (c : ChanIx) : t.chan c = s.chan c := by rw [State.chan, State.chan, channels]
  have buf (b : BufIx) : t.buf b = s.buf b := by rw [State.buf, State.buf, buffers]
  refine h.beyond (fun p => ⟨ports p, fun b => ?_, ?_, fun c => ?_⟩) (fun b => ⟨buf b, ?_, fun c => ?_, fun c _ => ?_⟩) ?_ (fun c => ?_) ?_
  · rw [buf]
    exact ⟨rfl, rfl⟩
  · rw [claimWait]
  · rw [chan]
    exact seenBy_refl ..
  · rw [freeList]
  · rw [chan]
  · rw [chan]
  · rw [claimWait]
    exact h.claims
  · rw [chan]
    exact h.channels c
  · rw [freeList]
    exact h.frees

theorem State.PoolBut.place (h : s.PoolBut E) (q : Port) (r : Record) : (s.place q r).PoolBut E :=
  h.congr (place_buffers ..) (place_freeList ..) (place_claimWait ..) (place_channels ..) fun p => (beyond_place s q r p).port

theorem State.PoolBut.served (h : s.PoolBut E) (r : Requester) : (s.served r).PoolBut E :=
  h.congr rfl rfl rfl rfl fun _ => alike_refl _

theorem State.PoolBut.finish {w : Work} (h : w.state.PoolBut E) : w.finish.PoolBut E :=
  finish_induct h fun _ p r hs => hs.place p r

theorem State.PoolBut.placeAll (h : s.PoolBut E) (ps : List Port) (r : Record) : (s.placeAll ps r).PoolBut E :=
  placeAll_induct (fun _ q hs => hs.place q r) ps s h

/-- A change that reaches one port. -/
theorem State.PoolBut.modPort (h : s.PoolBut E) {f : PortState → PortState} (own : (s.modPort p f).PortLawful p)
    (mover : (f (s.port p)).engine.bulk.map Bulk.touches = (s.port p).engine.bulk.map Bulk.touches) : (s.modPort p f).PoolBut E where
  ports q := by
    by_cases same : q = p
    · exact same ▸ own
    · exact (h.ports q).beyond (beyond_modPort_other same s f)
  claims := h.claims
  records := h.records
  channels := h.channels
  frees := h.frees
  linked b off := (h.linked b off).leaves (leaves_modPort s p f b)
  bulk := h.bulk.congr (sameMovers_modPort s p mover) fun _ => rfl

/-- A change that reaches one port and one buffer, whose place is then to be set right. -/
theorem State.PoolBut.touch (h : s.PoolBut E) (others : ∀ q, q ≠ p → s.Beyond t q) (own : t.PortLawful p) (claims : t.claimWait.Nodup)
    (record : (t.buf b).RolesLawful) (count : (t.buf b).bulkCount = (s.buf b).bulkCount) (channels : ∀ c, (t.chan c).Lawful)
    (frees : t.freeList.Nodup) (leaves : ∀ d, d ≠ b → s.Leaves t d) (movers : s.SameMovers t) : t.PoolBut (b :: E) where
  ports q := by
    by_cases same : q = p
    · exact same ▸ own
    · exact (h.ports q).beyond (others q same)
  claims := claims
  records d := by
    by_cases same : d = b
    · exact same ▸ record
    · rw [(leaves d same).record]
      exact h.records d
  channels := channels
  frees := frees
  linked d off := by
    obtain ⟨other, off⟩ := not_or.1 fun mem => off (List.mem_cons.2 mem)
    exact (h.linked d off).leaves (leaves d other)
  bulk := h.bulk.congr movers fun d => by
    by_cases same : d = b
    · exact same ▸ count
    · rw [(leaves d same).record]

/-- A change of one record that leaves everyone's roles. -/
theorem State.PoolBut.modBuf (h : s.PoolBut E) {f : BufRec → BufRec} (roles : ∀ q, (s.buf b).SameRoles q (f (s.buf b)))
    (record : (f (s.buf b)).RolesLawful) (count : (f (s.buf b)).bulkCount = (s.buf b).bulkCount) :
    (s.modBuf b f).PoolBut (b :: E) :=
  h.touch (p := 0) (fun q _ => beyond_modBuf s (roles q)) ((h.ports 0).beyond (beyond_modBuf s (roles 0))) h.claims
    (by rw [buf_modBuf_same]; exact record) (by rw [buf_modBuf_same]; exact count) h.channels h.frees
    (fun d other => leaves_modBuf other s f) (sameMovers_refl s)

end

end

end Sys2Proof.Machine
end

section
/-! The pool's laws through the ends of requests and the handing out of buffers (R3, R8, R9, R30). -/

namespace Sys2Proof.Machine

/-! ## The end of a wait or of a request -/

/-- An engine that has ended what it did for the pool: it waits for nothing, no mover works for it, and no other request has come. -/
structure Engine.Ended (e e' : Engine) : Prop where
  lawful : e'.Lawful
  state : e'.state ≠ .waiting
  bulk : e'.bulk = none
  request : ∀ r ∈ e'.request, r ∈ e.request

theorem completed_ended (e : Engine) (c : ResultCode) (r : Vector Word 4) : e.Ended (e.completed c r) :=
  ⟨e.completed_lawful c r, nofun, rfl, nofun⟩

section
variable {s t : State} {p : Port} {E : List BufIx}

/-- The control laws of an open port that waits no longer. -/
theorem State.ControlLawful.ended (h : s.ControlLawful p) (op : s.Open p) (session : t.sessionState p = s.sessionState p)
    (teardown : (t.port p).teardown = (s.port p).teardown) (ended : (s.port p).engine.Ended (t.port p).engine)
    (offClaims : p ∉ t.claimWait) (offTakes : ∀ c, ¬t.TakeWaits p c) : t.ControlLawful p := by
  refine controlLawful_of_open ?_ ended.lawful ?_ ?_ ?_ ?_ ?_ fun c waits => absurd waits (offTakes c)
  · rw [State.Open, session, teardown]
    exact op
  · rw [session]
    exact fun up r hr => h.session.admitted up r (ended.request r hr)
  · rw [ended.bulk]
    exact fun busy => busy.elim (fun waits => absurd waits ended.state) nofun
  · rw [session, teardown]
    exact h.teardown.runs
  · rw [teardown]
    exact h.teardown.start
  · exact ⟨fun waits => absurd waits ended.state, fun on => on.elim (fun mem => absurd mem offClaims)
      fun ⟨c, waits⟩ => absurd waits (offTakes c)⟩

/-- An open port whose engine runs a request, with no mover at work. -/
structure State.Runs (s : State) (p : Port) : Prop where
  op : s.Open p
  state : (s.port p).engine.state = .busy
  bulk : (s.port p).engine.bulk = none

theorem State.Runs.alike (h : s.Runs p) (alike : (s.port p).Alike (t.port p)) : t.Runs p where
  op := by
    rw [State.Open, State.sessionState, alike.session, alike.teardown]
    exact h.op
  state := by rw [alike.engine]; exact h.state
  bulk := by rw [alike.engine]; exact h.bulk

theorem State.Runs.offClaims (h : s.Runs p) (control : s.ControlLawful p) : p ∉ s.claimWait := fun mem =>
  nomatch h.state.symm.trans (control.waiting.2 (.inl mem))

theorem State.Runs.offTakes (h : s.Runs p) (control : s.ControlLawful p) (c : ChanIx) : ¬s.TakeWaits p c := fun waits =>
  nomatch h.state.symm.trans (control.waiting.2 (.inr ⟨c, waits⟩))

theorem State.ChargeLawful.congr (h : s.ChargeLawful p) (charge : (t.port p).charge = (s.port p).charge)
    (quota : (t.port p).quota = (s.port p).quota) (roles : ∀ b, (t.buf b).roleOf p = (s.buf b).roleOf p) : t.ChargeLawful p := by
  rw [State.ChargeLawful, charge, quota, roleCount_congr roles]
  exact h

/-- A port keeps its rights when it keeps its roles and its windows, and its mover or none. -/
theorem State.RightsLawful.mono (h : s.RightsLawful p) (windowA : (t.port p).windowA = (s.port p).windowA)
    (windowB : (t.port p).windowB = (s.port p).windowB)
    (mover : ∀ m ∈ (t.port p).engine.bulk, m ∈ (s.port p).engine.bulk)
    (held : ∀ b, (s.buf b).heldBy p = true → (t.buf b).heldBy p = true)
    (roles : ∀ b, (s.buf b).roleOf p = true → (t.buf b).roleOf p = true) : t.RightsLawful p where
  windows w v mapped := by
    have before : (s.port p).window w = .mapped v := by
      cases w
      · exact windowA.symm.trans mapped
      · exact windowB.symm.trans mapped
    obtain ⟨role, holds⟩ := h.windows w v before
    exact ⟨roles _ role, fun mode => held _ (holds mode)⟩
  mover m hm moving clear := by
    obtain ⟨holds, reads⟩ := h.mover m (mover m hm) moving clear
    exact ⟨held _ holds, fun r hr => roles _ (reads r hr)⟩

/-- A port with a request in an engine of which nothing else has begun completes it. -/
theorem State.PoolBut.ended (h : s.PoolBut E) (runs : s.Runs p) {f : Engine → Engine}
    (ended : (s.port p).engine.Ended (f (s.port p).engine)) : (s.modEngine p f).PoolBut E := by
  have port : (s.modEngine p f).port p = { s.port p with engine := f (s.port p).engine } := port_modPort_same ..
  have laws := h.ports p
  refine h.modPort (f := fun x => { x with engine := f x.engine }) ⟨?_, ?_, ?_⟩ ?_
  · refine laws.control.ended runs.op ?_ ?_ ?_ (runs.offClaims laws.control) (runs.offTakes laws.control)
    · rw [State.sessionState, ← State.modEngine, port]
      rfl
    · rw [← State.modEngine, port]
    · rw [← State.modEngine, port]
      exact ended
  · exact laws.charge.congr (by rw [← State.modEngine, port]) (by rw [← State.modEngine, port]) fun _ => rfl
  · refine laws.rights.mono (by rw [← State.modEngine, port]) (by rw [← State.modEngine, port]) ?_ (fun _ => id) fun _ => id
    rw [← State.modEngine, port, ended.bulk]
    exact nofun
  · rw [ended.bulk, runs.bulk]

theorem State.PoolBut.complete {w : Work} (h : w.state.PoolBut E) (runs : w.state.Runs p) (c : ResultCode) (r : Vector Word 4)
    (long : Bool) : (w.complete p c r long).state.PoolBut E :=
  h.ended (f := fun e => e.completed c r) runs (completed_ended _ c r)

/-! ## A buffer is handed out -/

theorem roles_of_unused {r : BufRec} (h : r.unused = true) : r.holder = none ∧ r.readers = [] ∧ r.pending = 0 := by
  simp only [BufRec.unused, Bool.and_eq_true, Option.isNone_iff_eq_none, List.isEmpty_iff, beq_iff_eq] at h
  exact ⟨h.1.1, h.1.2, h.2⟩

theorem roleOf_of_unused {r : BufRec} (h : r.unused = true) (q : Port) : r.heldBy q = false ∧ r.readBy q = false := by
  obtain ⟨holder, readers, _⟩ := roles_of_unused h
  rw [BufRec.heldBy, BufRec.readBy, holder, readers]
  exact ⟨rfl, rfl⟩

/-- A record whose holder has become a port. -/
structure BufRec.HeldNow (r r' : BufRec) (p : Port) : Prop where
  holder : ∃ l, r'.holder = some { port := p, lease := l }
  readers : r'.readers = r.readers := by rfl
  pending : r'.pending = r.pending := by rfl
  channel : r'.channel = r.channel := by rfl
  count : r'.bulkCount = r.bulkCount := by rfl
  length : r'.length ≤ 512

section
variable {r r' : BufRec}

theorem BufRec.HeldNow.heldBy (h : r.HeldNow r' p) (q : Port) : r'.heldBy q = decide (q = p) := by
  obtain ⟨l, holder⟩ := h.holder
  rw [BufRec.heldBy, holder, Option.any_some]
  exact Bool.eq_iff_iff.2 (by simpa using eq_comm)

theorem BufRec.HeldNow.sameRoles (h : r.HeldNow r' p) (unused : r.unused = true) {q : Port} (other : q ≠ p) : r.SameRoles q r' := by
  refine ⟨?_, by rw [BufRec.readBy, BufRec.readBy, h.readers]⟩
  rw [h.heldBy, (roleOf_of_unused unused q).1, decide_eq_false other]

theorem BufRec.HeldNow.rolesLawful (h : r.HeldNow r' p) (unused : r.unused = true) : r'.RolesLawful := by
  obtain ⟨_, readers, pending⟩ := roles_of_unused unused
  refine ⟨fun _ => ⟨h.readers.trans readers, h.pending.trans pending⟩, ?_, ?_, h.length⟩
  · rw [h.readers, readers]
    exact List.nodup_nil
  · rw [h.readers, readers]
    exact nofun

theorem BufRec.HeldNow.state (h : r.HeldNow r' p) : r'.state = .held := by
  obtain ⟨l, holder⟩ := h.holder
  rw [BufRec.state, holder]
  rfl

end

/-- A buffer that stands nowhere and has no use becomes held by a port, whose charge rises by one and whose engine may move. -/
theorem State.PoolBut.holds {b : BufIx} {f : BufRec → BufRec} {g : PortState → PortState} {l : List Port} (h : s.PoolBut (b :: E))
    (queued : s.Queued b) (loose : b ∉ s.freeList) (unused : (s.buf b).unused = true) (held : (s.buf b).HeldNow (f (s.buf b)) p)
    (claims : l.Nodup) (others : ∀ q, q ≠ p → (q ∈ l ↔ q ∈ s.claimWait)) (below : s.belowQuota p = true)
    (raised : ∃ e, g (s.port p) = { s.port p with charge := (s.port p).charge + 1, engine := e } ∧ e.bulk = (s.port p).engine.bulk)
    (control : (((s.modBuf b f).setClaimWait l).modPort p g).ControlLawful p) :
    (((s.modBuf b f).setClaimWait l).modPort p g).PoolBut E := by
  obtain ⟨e, raise, mover⟩ := raised
  have port : (((s.modBuf b f).setClaimWait l).modPort p g).port p =
      { s.port p with charge := (s.port p).charge + 1, engine := e } := (port_modPort_same ..).trans raise
  have buf : (((s.modBuf b f).setClaimWait l).modPort p g).buf b = f (s.buf b) := buf_modBuf_same ..
  have bufOther {d : BufIx} (other : d ≠ b) : (((s.modBuf b f).setClaimWait l).modPort p g).buf d = s.buf d := buf_modBuf_other _ other _
  have laws := h.ports p
  have noRole := roleOf_of_unused unused p
  have keepHeld (d : BufIx) (on : (s.buf d).heldBy p = true) :
      ((((s.modBuf b f).setClaimWait l).modPort p g).buf d).heldBy p = true := by
    by_cases same : d = b
    · rw [same, buf, held.heldBy]
      exact decide_eq_true rfl
    · rwa [bufOther same]
  have keepRole (d : BufIx) (on : (s.buf d).roleOf p = true) :
      ((((s.modBuf b f).setClaimWait l).modPort p g).buf d).roleOf p = true := by
    by_cases same : d = b
    · rw [same, buf, BufRec.roleOf, held.heldBy, decide_eq_true rfl, Bool.true_or]
    · rwa [bufOther same]
  have charge : (((s.modBuf b f).setClaimWait l).modPort p g).ChargeLawful p := by
    obtain ⟨count, _, limit⟩ := laws.charge
    have gain : (((s.modBuf b f).setClaimWait l).modPort p g).roleCount p = s.roleCount p + 1 := by
      refine roleCount_gain (b := b) ?_ ?_ fun d other => by rw [bufOther other]
      · rw [BufRec.roleOf, noRole.1, noRole.2]
        rfl
      · rw [buf, BufRec.roleOf, held.heldBy, decide_eq_true rfl, Bool.true_or]
    rw [State.ChargeLawful, port, gain, ← count]
    exact ⟨rfl, (belowQuota_iff s p).1 below, limit⟩
  have touched := h.touch (t := ((s.modBuf b f).setClaimWait l).modPort p g) (p := p) (b := b)
    (fun q other => ((beyond_modBuf s (held.sameRoles unused other)).trans (beyond_setClaimWait _ (others q other))).trans
      (beyond_modPort_other other _ g))
    ⟨control, charge, laws.rights.mono (by rw [port]) (by rw [port]) (by rw [port, mover]; exact fun _ => id) keepHeld keepRole⟩
    claims (by rw [buf]; exact held.rolesLawful unused) (by rw [buf]; exact held.count) h.channels h.frees
    (fun d other => ((leaves_modBuf other s f).trans (leaves_setClaimWait ..)).trans (leaves_modPort ..))
    (sameMovers_modPort ((s.modBuf b f).setClaimWait l) p (by
      show (g (s.port p)).engine.bulk.map _ = (s.port p).engine.bulk.map _
      rw [raise, mover]))
  refine (touched.weaken (F := b :: E) fun d mem => by simpa using mem).close
    ⟨queued.congr (by rw [buf]; exact held.channel) (by rw [buf]; exact held.pending) (fun _ => Iff.rfl) fun _ _ => rfl, ?_⟩
  rw [buf, held.state]
  exact ⟨fun mem => absurd mem loose, nofun⟩

end

end Sys2Proof.Machine
end

section
/-! The pool's laws through buffers that enter FREE, claims that are served, and the last-use rule (R3, R8, R9, R37). -/

namespace Sys2Proof.Machine

section
variable {w : Work} {s : State} {p q : Port} {b : BufIx} {E : List BufIx}

theorem state_free_iff (r : BufRec) : r.state = .free ↔ r.unused = true ∧ r.bulkCount = 0 := by
  unfold BufRec.state BufRec.unused
  cases r.holder with
  | some _ => simp
  | none =>
    cases r.readers with
    | cons _ _ => simp
    | nil =>
      by_cases pending : r.pending = 0#4
      · by_cases count : r.bulkCount = 0 <;> simp [pending, count]
      · simp [pending]

/-- A buffer that is on no list it should not be on, and may be due to enter FREE. -/
structure State.Loose (s : State) (b : BufIx) : Prop where
  queued : s.Queued b
  free : b ∉ s.freeList

/-! ## Claims that get their buffer (R8, R37) -/

/-- The end of a CLAIM changes its engine alone, which then waits no longer. -/
theorem claimGiven_state (w : Work) (p : Port) (b : BufIx) (long : Bool) : ∃ g : Engine → Engine,
    (w.claimGiven p b long).state = w.state.modEngine p g ∧
      ∀ e : Engine, e.claimsZero = (w.state.port p).engine.claimsZero → e.Lawful → e.bulk = none → e.Ended (g e) := by
  unfold Work.claimGiven
  split
  · rename_i zero
    refine ⟨fun e => { e with state := .busy, claimed := some (w.state.handle b), timer := none, cancelMarker := false }, rfl,
      fun e same lawful bulk => ⟨?_, nofun, bulk, fun _ => id⟩⟩
    exact (Engine.Moves.claims e _ (same.trans zero)).lawful lawful
  · exact ⟨fun e => e.completed .ok _, rfl, fun e _ _ _ => completed_ended e ..⟩

theorem handOut_then_engine (s : State) (p : Port) (b : BufIx) (l : List Port) (g : Engine → Engine) :
    ((s.handOut p b).setClaimWait l).modEngine p g =
      ((s.modBuf b fun r => r.handedTo p (s.port p).session.holdLease).setClaimWait l).modPort p fun x =>
        { x with charge := x.charge + 1, engine := g x.engine } := by
  unfold State.handOut State.raiseCharge
  rw [modEngine_eq_modPort, modPort_setClaimWait_comm, modPort_modPort]
  rfl

theorem handedTo_heldNow (r : BufRec) (p : Port) (v : Word) : r.HeldNow (r.handedTo p v) p where
  holder := ⟨_, rfl⟩
  length := Nat.zero_le _

/-- A buffer that stands nowhere goes to a port whose engine ends its CLAIM. -/
theorem State.PoolBut.handOut {l : List Port} {g : Engine → Engine} (h : s.PoolBut (b :: E)) (loose : s.Loose b)
    (unused : (s.buf b).unused = true) (claims : l.Nodup) (others : ∀ q, q ≠ p → (q ∈ l ↔ q ∈ s.claimWait))
    (below : s.belowQuota p = true) (op : s.Open p) (ended : (s.port p).engine.Ended (g (s.port p).engine))
    (bulk : (s.port p).engine.bulk = none) (offClaims : p ∉ l) (offTakes : ∀ c, ¬s.TakeWaits p c) :
    (((s.handOut p b).setClaimWait l).modEngine p g).PoolBut E := by
  rw [handOut_then_engine]
  refine h.holds loose.queued loose.free unused (handedTo_heldNow ..) claims others below
    ⟨_, rfl, ended.bulk.trans bulk.symm⟩ ((h.ports p).control.ended op ?_ ?_ ?_ offClaims offTakes)
  · rw [State.sessionState, port_modPort_same]
    rfl
  · rw [port_modPort_same]
    rfl
  · rw [port_modPort_same]
    exact ended

theorem handOut_engine (s : State) (p q : Port) (b : BufIx) : ((s.handOut q b).port p).engine = (s.port p).engine := by
  rw [State.handOut, State.raiseCharge, port_modPort, port_modBuf]
  split
  · rename_i same
    rw [same]
  · rfl

theorem bulk_of_waiting (h : s.ControlLawful p) (waiting : (s.port p).engine.state = .waiting) : (s.port p).engine.bulk = none :=
  (h.engine.not_busy (by rw [waiting]; exact nofun)).1

theorem State.PoolBut.serveClaim (h : w.state.PoolBut (b :: E)) (loose : w.state.Loose b) (unused : (w.state.buf b).unused = true)
    (waits : q ∈ w.state.claimWait) (below : w.state.belowQuota q = true) : (w.serveClaim q b).state.PoolBut E := by
  obtain ⟨g, state, ends⟩ := claimGiven_state (w.map fun s => (s.handOut q b).setClaimWait (s.claimWait.erase q)) q b true
  have control := (h.ports q).control
  have waiting := control.waiting.2 (.inl waits)
  have bulk := bulk_of_waiting control waiting
  have engine : ((w.map fun s => (s.handOut q b).setClaimWait (s.claimWait.erase q)).state.port q).engine = (w.state.port q).engine := by
    rw [map_state]
    exact handOut_engine ..
  unfold Work.serveClaim
  rw [state]
  exact h.handOut loose unused (h.claims.erase q) (fun r other => List.mem_erase_of_ne other) below (open_of_waiting control waiting)
    (ends _ (by rw [engine]) control.engine bulk) bulk (fun mem => (List.Nodup.mem_erase_iff h.claims).1 mem |>.1 rfl)
    fun c takes => (control.once c takes).1 waits

/-! ## Buffers that enter FREE (R3, R8) -/

theorem State.PoolBut.freed (h : s.PoolBut (b :: E)) (unused : (s.buf b).unused = true) : (s.modBuf b BufRec.freed).PoolBut (b :: E) := by
  obtain ⟨_, readers, _⟩ := roles_of_unused unused
  refine (h.modBuf (f := BufRec.freed) (fun q => ?_) ⟨nofun, List.nodup_nil, nofun, (h.records b).length⟩ rfl).weaken
    fun d mem => by simpa using mem
  obtain ⟨off, reads⟩ := roleOf_of_unused unused q
  exact ⟨off.symm, reads.symm⟩

theorem freed_unused (s : State) (b : BufIx) : ((s.modBuf b BufRec.freed).buf b).unused = true := by
  rw [buf_modBuf_same]
  rfl

theorem State.Loose.freed (h : s.Loose b) (unused : (s.buf b).unused = true) : (s.modBuf b BufRec.freed).Loose b := by
  obtain ⟨_, _, pending⟩ := roles_of_unused unused
  have channel : (s.buf b).channel = none := by
    cases named : (s.buf b).channel with
    | none => rfl
    | some c => exact absurd pending (h.queued.channel.1 (by rw [named]; rfl))
  exact ⟨h.queued.congr (by rw [buf_modBuf_same, channel]; rfl) (by rw [buf_modBuf_same, pending]; rfl) (fun _ => Iff.rfl)
    fun _ _ => rfl, h.free⟩

/-- A buffer with no use joins the Free List. -/
theorem State.PoolBut.joinsFree (h : s.PoolBut (b :: E)) (loose : s.Loose b) (free : (s.buf b).state = .free) :
    (s.setFreeList (s.freeList ++ [b])).PoolBut E := by
  have touched := h.touch (t := s.setFreeList (s.freeList ++ [b])) (p := 0) (b := b) (fun q _ => beyond_setFreeList s q _)
    ((h.ports 0).beyond (beyond_setFreeList s 0 _)) h.claims (h.records b) rfl h.channels
    (List.nodup_append.2 ⟨h.frees, List.nodup_singleton b, fun x mem y one => by
      rw [List.mem_singleton.1 one]
      exact fun same => loose.free (same ▸ mem)⟩)
    (fun d other => leaves_setFreeList s (by simp [other])) (sameMovers_refl s)
  exact (touched.weaken (F := b :: E) fun d mem => by simpa using mem).close
    ⟨loose.queued.congr rfl rfl (fun _ => Iff.rfl) fun _ _ => rfl, ⟨fun _ => free, fun _ => List.mem_append_right _ (List.mem_singleton_self b)⟩⟩

theorem State.PoolBut.enterFree (h : w.state.PoolBut (b :: E)) (loose : w.state.Loose b) (unused : (w.state.buf b).unused = true)
    (count : (w.state.buf b).bulkCount = 0) : (w.enterFree b).state.PoolBut E := by
  have freed := h.freed unused
  have loose' := loose.freed unused
  unfold Work.enterFree
  simp only
  split
  · rename_i q found
    exact State.PoolBut.serveClaim (w := w.map fun s => s.modBuf b BufRec.freed) freed loose' (freed_unused ..)
      (List.mem_of_find?_eq_some found) (List.find?_some (p := State.belowQuota _) found)
  · refine freed.joinsFree loose' ((state_free_iff _).2 ⟨freed_unused .., ?_⟩)
    rw [buf_modBuf_same]
    exact count

/-- The last-use rule sets a buffer's place right. -/
theorem State.PoolBut.lastUse (h : w.state.PoolBut (b :: E)) (loose : w.state.Loose b) : (w.lastUse b).state.PoolBut E := by
  unfold Work.lastUse
  split
  · rename_i idle
    rw [Bool.and_eq_true, beq_iff_eq] at idle
    exact h.enterFree loose idle.1 idle.2
  · rename_i used
    refine h.close ⟨loose.queued, fun mem => absurd mem loose.free, fun free => absurd ?_ used⟩
    rw [Bool.and_eq_true, beq_iff_eq]
    exact (state_free_iff _).1 free

/-! ## Claim service (R9) -/

/-- The head of the Free List, taken off it, stands nowhere. -/
theorem State.PoolBut.takeFree {rest : List BufIx} (h : s.PoolBut []) (list : s.freeList = b :: rest) :
    (s.setFreeList rest).PoolBut [b] ∧ (s.setFreeList rest).Loose b ∧ (s.buf b).unused = true := by
  have distinct := h.frees
  rw [list] at distinct
  obtain ⟨away, rest'⟩ := List.nodup_cons.1 distinct
  have linked := h.linked b List.not_mem_nil
  have free := linked.free.1 (by rw [list]; exact List.mem_cons_self)
  refine ⟨?_, ⟨linked.toQueued.congr rfl rfl (fun _ => Iff.rfl) fun _ _ => rfl, away⟩, ((state_free_iff _).1 free).1⟩
  exact h.touch (t := s.setFreeList rest) (p := 0) (b := b) (fun q _ => beyond_setFreeList s q _)
    ((h.ports 0).beyond (beyond_setFreeList s 0 _)) h.claims (h.records b) rfl h.channels rest'
    (fun d other => leaves_setFreeList s (by rw [list]; simp [other])) (sameMovers_refl s)

theorem serveClaim_claimWait (w : Work) (q : Port) (b : BufIx) : (w.serveClaim q b).state.claimWait = w.state.claimWait.erase q := by
  unfold Work.serveClaim Work.claimGiven
  split <;> rfl

theorem serveTurn_claimWait (w : Work) (q r : Port) (other : r ≠ q) : r ∈ (w.serveTurn q).state.claimWait ↔ r ∈ w.state.claimWait := by
  unfold Work.serveTurn
  split
  · split
    · rfl
    · rw [serveClaim_claimWait]
      exact List.mem_erase_of_ne other
  · rfl

theorem State.PoolBut.serveTurn (h : w.state.PoolBut []) (waits : q ∈ w.state.claimWait) : (w.serveTurn q).state.PoolBut [] := by
  unfold Work.serveTurn
  split
  · rename_i below
    split
    · exact h
    · rename_i b rest list
      obtain ⟨taken, loose, unused⟩ := h.takeFree list
      exact State.PoolBut.serveClaim (w := w.map fun s => s.setFreeList rest) taken loose unused waits below
  · exact h

theorem State.PoolBut.serveTurns {l : List Port} (h : w.state.PoolBut []) (distinct : l.Nodup) (waits : ∀ q ∈ l, q ∈ w.state.claimWait) :
    (l.foldl Work.serveTurn w).state.PoolBut [] := by
  induction l generalizing w with
  | nil => exact h
  | cons q l ih =>
    obtain ⟨away, distinct⟩ := List.nodup_cons.1 distinct
    refine ih (h.serveTurn (waits q List.mem_cons_self)) distinct fun r mem => ?_
    rw [serveTurn_claimWait w q r fun same => away (same ▸ mem)]
    exact waits r (List.mem_cons_of_mem _ mem)

theorem State.PoolBut.claimService (h : w.state.PoolBut []) : w.claimService.state.PoolBut [] := by
  rw [claimService_eq_foldl]
  exact h.serveTurns h.claims fun _ => id

/-! ## What they leave of a port that runs a request -/

theorem enterFree_runs (h : w.state.ControlLawful p) (runs : w.state.Runs p) (b : BufIx) : (w.enterFree b).state.Runs p :=
  runs.alike (by rw [enterFree_port_other (runs.offClaims h)]; exact alike_refl _)

theorem lastUse_runs (h : w.state.ControlLawful p) (runs : w.state.Runs p) (b : BufIx) : (w.lastUse b).state.Runs p :=
  runs.alike (by rw [lastUse_port_other (runs.offClaims h)]; exact alike_refl _)

end

end Sys2Proof.Machine
end

section
/-! The pool's laws through a role that is lost (R39, R40, R49, R80, R81) and a reader role that is gained (R50, R57). -/

namespace Sys2Proof.Machine

/-! ## A role is lost -/

/-- What a port's state becomes when it loses a role in a buffer: its charge falls by one, no window maps the buffer any more, and a mover
that goes on does not use it. -/
structure PortState.Drops (x y : PortState) (b : BufIx) : Prop where
  charge : y.charge = x.charge - 1
  quota : y.quota = x.quota := by rfl
  session : y.session.state = x.session.state := by rfl
  teardown : y.teardown = x.teardown := by rfl
  engine : ∃ f : Bulk → Bulk, y.engine = { x.engine with bulk := x.engine.bulk.map f } ∧ ∀ m, (f m).touches = m.touches
  windowA : x.windowA = .unmapped → y.windowA = .unmapped
  windowB : x.windowB = .unmapped → y.windowB = .unmapped
  windows : ∀ w v, y.window w = .mapped v → x.window w = .mapped v ∧ handleIx v.handle ≠ b

section
variable {s t : State} {p : Port} {b : BufIx} {E : List BufIx}

/-- A port loses its role in a buffer, whose place is then to be set right. -/
theorem State.PoolBut.loses {f : BufRec → BufRec} {g : PortState → PortState} (h : s.PoolBut E)
    (role : (s.buf b).roleOf p = true) (none : (f (s.buf b)).heldBy p = false ∧ (f (s.buf b)).readBy p = false)
    (others : ∀ q, q ≠ p → (s.buf b).SameRoles q (f (s.buf b))) (record : (f (s.buf b)).RolesLawful)
    (count : (f (s.buf b)).bulkCount = (s.buf b).bulkCount) (drops : (s.port p).Drops (g (s.port p)) b)
    (mover : ∀ m ∈ (g (s.port p)).engine.bulk, m.phase = .moving → m.abort = false →
      m ∈ (s.port p).engine.bulk ∧ m.destination.buffer ≠ b ∧ ∀ r ∈ m.source, r.buffer ≠ b) :
    ((s.modBuf b f).modPort p g).PoolBut (b :: E) := by
  have port : ((s.modBuf b f).modPort p g).port p = g (s.port p) := port_modPort_same ..
  have buf : ((s.modBuf b f).modPort p g).buf b = f (s.buf b) := buf_modBuf_same ..
  have bufOther {d : BufIx} (other : d ≠ b) : ((s.modBuf b f).modPort p g).buf d = s.buf d := buf_modBuf_other _ other _
  have laws := h.ports p
  have lost : ((f (s.buf b)).roleOf p) = false := by rw [BufRec.roleOf, none.1, none.2]; rfl
  obtain ⟨touch, engine, touches⟩ := drops.engine
  have control : ((s.modBuf b f).modPort p g).ControlLawful p := State.ControlLawful.frame (s := s)
    { session := by rw [State.sessionState, port]; exact drops.session
      teardown := by rw [port]; exact drops.teardown
      engine := by rw [port, engine]; exact (Engine.Moves.mover _ touch).lawful laws.control.engine
      state := by rw [port, engine]
      request := by rw [port, engine]
      mover := by rw [port, engine, Option.isSome_map]
      windowA := by rw [port]; exact drops.windowA
      windowB := by rw [port]; exact drops.windowB
      roles := fun d on => by
        by_cases same : d = b
        · rw [same]; exact role
        · rwa [bufOther same] at on
      claims := Iff.rfl
      chans := fun _ => seenBy_refl .. } laws.control
  have charge : ((s.modBuf b f).modPort p g).ChargeLawful p := by
    obtain ⟨count, below, limit⟩ := laws.charge
    have loss : s.roleCount p = ((s.modBuf b f).modPort p g).roleCount p + 1 :=
      roleCount_gain (b := b) (by rw [buf]; exact lost) role fun d other => by rw [bufOther other]
    rw [State.ChargeLawful, port, drops.charge, drops.quota]
    omega
  have rights : ((s.modBuf b f).modPort p g).RightsLawful p :=
    { windows := fun w v mapped => by
        rw [port] at mapped
        obtain ⟨before, other⟩ := drops.windows w v mapped
        rw [bufOther other]
        exact laws.rights.windows w v before
      mover := fun m hm moving clear => by
        rw [port] at hm
        obtain ⟨before, destination, source⟩ := mover m hm moving clear
        obtain ⟨holds, reads⟩ := laws.rights.mover m before moving clear
        rw [bufOther destination]
        exact ⟨holds, fun r hr => by rw [bufOther (source r hr)]; exact reads r hr⟩ }
  exact h.touch (fun q other => (beyond_modBuf s (others q other)).trans (beyond_modPort_other other _ g)) ⟨control, charge, rights⟩
    h.claims (by rw [buf]; exact record) (by rw [buf]; exact count) h.channels h.frees
    (fun d other => (leaves_modBuf other s f).trans (leaves_modPort ..))
    (sameMovers_modPort (s.modBuf b f) p (by
      show (g (s.port p)).engine.bulk.map _ = (s.port p).engine.bulk.map _
      rw [engine]
      cases (s.port p).engine.bulk with
      | none => rfl
      | some m => exact congrArg some (touches m)))

/-- The record without the port as holder, or as reader. -/
def BufRec.unheld (r : BufRec) : BufRec := { r with holder := none }
def BufRec.unread (r : BufRec) (p : Port) : BufRec := { r with readers := r.readers.filter fun e => e.port != p }

theorem BufRec.RolesLawful.exclusive {r : BufRec} (h : r.RolesLawful) (reads : r.readers ≠ []) : r.holder = none := by
  cases holder : r.holder with
  | none => rfl
  | some x => exact absurd (h.held (by rw [holder]; rfl)).1 reads

theorem readers_of_readBy {r : BufRec} (h : r.readBy p = true) : r.readers ≠ [] := fun empty => by
  rw [BufRec.readBy, empty] at h
  exact Bool.false_ne_true h

theorem heldBy_eq_decide {r : BufRec} (held : r.heldBy p = true) (q : Port) : r.heldBy q = decide (q = p) := by
  obtain ⟨x, holder, port⟩ : ∃ x, r.holder = some x ∧ x.port = p := by
    simpa [BufRec.heldBy, Option.any_eq_true] using held
  rw [BufRec.heldBy, holder, Option.any_some, port]
  exact Bool.eq_iff_iff.2 (by simpa using eq_comm)

/-- The holder of a record, and no reader, has a role in it. -/
theorem unheld_lost {r : BufRec} (h : r.RolesLawful) (held : r.heldBy p = true) :
    (r.unheld.heldBy p = false ∧ r.unheld.readBy p = false) ∧ (∀ q, q ≠ p → r.SameRoles q r.unheld) ∧ r.unheld.RolesLawful := by
  have some : r.holder.isSome = true := by
    obtain ⟨x, holder, _⟩ : ∃ x, r.holder = some x ∧ x.port = p := by simpa [BufRec.heldBy, Option.any_eq_true] using held
    rw [holder]
    rfl
  have readers := (h.held some).1
  refine ⟨⟨rfl, ?_⟩, fun q other => ⟨?_, rfl⟩, nofun, h.readers, h.pending, h.length⟩
  · show r.readers.any _ = false
    rw [readers]
    rfl
  · rw [heldBy_eq_decide held, decide_eq_false other]
    rfl

theorem unread_lost {r : BufRec} (h : r.RolesLawful) (reads : r.readBy p = true) :
    ((r.unread p).heldBy p = false ∧ (r.unread p).readBy p = false) ∧ (∀ q, q ≠ p → r.SameRoles q (r.unread p)) ∧
      (r.unread p).RolesLawful := by
  have holder := h.exclusive (readers_of_readBy reads)
  refine ⟨⟨?_, ?_⟩, fun q other => ⟨rfl, ?_⟩, fun some => ?_, ?_, fun e mem => h.pending e (List.mem_of_mem_filter mem), h.length⟩
  · show r.holder.any _ = false
    rw [holder]
    rfl
  · refine List.any_eq_false.2 fun e mem => ?_
    have away := (List.mem_filter.1 mem).2
    simpa using away
  · refine Bool.eq_iff_iff.2 ?_
    simp only [BufRec.unread, BufRec.readBy, List.any_eq_true, List.mem_filter, beq_iff_eq, bne_iff_ne]
    exact ⟨fun ⟨e, ⟨mem, _⟩, is⟩ => ⟨e, mem, is⟩, fun ⟨e, mem, is⟩ => ⟨e, ⟨mem, fun same => other (is.symm.trans same)⟩, is⟩⟩
  · have some' : r.holder.isSome = true := some
    rw [holder] at some'
    exact nomatch some'
  · exact h.readers.sublist (List.filter_sublist.map _)

/-- A buffer with a role is not FREE. -/
theorem role_not_free {r : BufRec} (role : r.roleOf p = true) : r.state ≠ .free := fun free => by
  obtain ⟨held, reads⟩ := roleOf_of_unused ((state_free_iff r).1 free).1 p
  rw [BufRec.roleOf, held, reads] at role
  exact Bool.false_ne_true role

/-- A buffer in which a role has been lost is not on the Free List, and stands where it stood. -/
theorem State.Linked.loose (h : s.Linked b) (used : (s.buf b).state ≠ .free) (channel : (t.buf b).channel = (s.buf b).channel)
    (pending : (t.buf b).pending = (s.buf b).pending) (freeList : t.freeList = s.freeList) (channels : t.channels = s.channels) :
    t.Loose b where
  queued := h.toQueued.congr channel pending (fun c => by rw [State.chan, State.chan, channels])
    fun c _ => by rw [State.chan, State.chan, channels]
  free mem := by
    rw [freeList] at mem
    exact used (h.free.1 mem)

/-! ## Reclaims (R80, R81) -/

theorem staleOf_mapped {x : Window} {b : BufIx} {v : View} (h : x.staleOf b = .mapped v) : x = .mapped v ∧ handleIx v.handle ≠ b := by
  cases x with
  | unmapped => exact nomatch h
  | stale _ => exact nomatch h
  | mapped u =>
    rw [Window.staleOf] at h
    split at h
    · exact nomatch h
    · cases h
      exact ⟨rfl, ‹_›⟩

theorem loses_drops (x : PortState) (b : BufIx) (uses : Bool) : x.Drops (x.loses b uses) b where
  charge := rfl
  engine := by
    cases uses with
    | true => exact ⟨fun m => { m with abort := true }, rfl, fun _ => rfl⟩
    | false => exact ⟨id, by rw [Option.map_id]; rfl, fun _ => rfl⟩
  windowA off := by rw [PortState.loses, off]; rfl
  windowB off := by rw [PortState.loses, off]; rfl
  windows w v mapped := by
    cases w
    · exact staleOf_mapped mapped
    · exact staleOf_mapped mapped

/-- A mover that goes on after a reclaim is not one that the reclaim has marked. -/
theorem loses_mover {x : PortState} {uses : Bool} {m : Bulk} (hm : m ∈ (x.loses b uses).engine.bulk) (clear : m.abort = false) :
    uses = false ∧ m ∈ x.engine.bulk := by
  cases uses with
  | false => exact ⟨rfl, hm⟩
  | true =>
    obtain ⟨m', _, rfl⟩ := Option.map_eq_some_iff.1 hm
    exact nomatch clear

theorem State.PoolBut.losesHolding {g : PortState → PortState} (h : s.PoolBut E) (off : b ∉ E) (held : (s.buf b).heldBy p = true)
    (drops : (s.port p).Drops (g (s.port p)) b)
    (mover : ∀ m ∈ (g (s.port p)).engine.bulk, m.phase = .moving → m.abort = false → m ∈ (s.port p).engine.bulk ∧ m.uses b = false) :
    ((s.modBuf b BufRec.unheld).modPort p g).PoolBut (b :: E) ∧ ((s.modBuf b BufRec.unheld).modPort p g).Loose b := by
  obtain ⟨none, others, record⟩ := unheld_lost (h.records b) held
  have role : (s.buf b).roleOf p = true := by rw [BufRec.roleOf, held, Bool.true_or]
  refine ⟨h.loses role none others record rfl drops fun m hm moving clear => ?_, ?_⟩
  · obtain ⟨before, unused⟩ := mover m hm moving clear
    rw [Bulk.uses, Bool.or_eq_false_iff] at unused
    refine ⟨before, by simpa using unused.1, fun r hr => ?_⟩
    have source := unused.2
    rw [hr] at source
    simpa using source
  · exact (h.linked b off).loose (role_not_free role) (by rw [buf_modPort, buf_modBuf_same]; rfl)
      (by rw [buf_modPort, buf_modBuf_same]; rfl) rfl rfl

theorem State.PoolBut.losesReader {g : PortState → PortState} (h : s.PoolBut E) (off : b ∉ E) (reads : (s.buf b).readBy p = true)
    (drops : (s.port p).Drops (g (s.port p)) b)
    (mover : ∀ m ∈ (g (s.port p)).engine.bulk, m.phase = .moving → m.abort = false → m ∈ (s.port p).engine.bulk ∧ m.readsFrom b = false) :
    ((s.modBuf b fun r => r.unread p).modPort p g).PoolBut (b :: E) ∧ ((s.modBuf b fun r => r.unread p).modPort p g).Loose b := by
  obtain ⟨none, others, record⟩ := unread_lost (h.records b) reads
  have role : (s.buf b).roleOf p = true := by rw [BufRec.roleOf, reads, Bool.or_true]
  refine ⟨h.loses role none others record rfl drops fun m hm moving clear => ?_, ?_⟩
  · obtain ⟨before, unused⟩ := mover m hm moving clear
    refine ⟨before, fun same => ?_, fun r hr => ?_⟩
    · have holds := ((h.ports p).rights.mover m before moving clear).1
      rw [same, BufRec.heldBy, (h.records b).exclusive (readers_of_readBy reads)] at holds
      exact Bool.false_ne_true holds
    · rw [Bulk.readsFrom, hr] at unused
      simpa using unused
  · exact (h.linked b off).loose (role_not_free role) (by rw [buf_modPort, buf_modBuf_same]; rfl)
      (by rw [buf_modPort, buf_modBuf_same]; rfl) rfl rfl

theorem any_of_false {m : Option Bulk} {x : Bulk} {f : Bulk → Bool} (h : m.any f = false) (hx : x ∈ m) : f x = false := by
  rw [Option.mem_def.1 hx] at h
  exact h

theorem State.PoolBut.reclaimHolding {w : Work} (h : w.state.PoolBut E) (off : b ∉ E) (held : (w.state.buf b).heldBy p = true) :
    (w.reclaimHolding p b).state.PoolBut E := by
  obtain ⟨lost, loose⟩ := h.losesHolding (g := fun x => x.loses b ((w.state.port p).engine.bulk.any fun m => m.uses b)) off held
    (loses_drops ..) fun m hm _ clear => by
      obtain ⟨unused, before⟩ := loses_mover hm clear
      exact ⟨before, any_of_false unused before⟩
  have state := loses_port w.state p b (fun m => m.uses b) BufRec.unheld
  refine State.PoolBut.lastUse ?_ ?_
  · exact (congrArg (State.PoolBut (b :: E)) state).mpr lost
  · exact (congrArg (fun t : State => t.Loose b) state).mpr loose

theorem State.PoolBut.reclaimReader {w : Work} (h : w.state.PoolBut E) (off : b ∉ E) (reads : (w.state.buf b).readBy p = true) :
    (w.reclaimReader p b).state.PoolBut E := by
  obtain ⟨lost, loose⟩ := h.losesReader (g := fun x => x.loses b ((w.state.port p).engine.bulk.any fun m => m.readsFrom b)) off reads
    (loses_drops ..) fun m hm _ clear => by
      obtain ⟨unused, before⟩ := loses_mover hm clear
      exact ⟨before, any_of_false unused before⟩
  have state := loses_port w.state p b (fun m => m.readsFrom b) fun r => r.unread p
  refine State.PoolBut.lastUse ?_ ?_
  · exact (congrArg (State.PoolBut (b :: E)) state).mpr lost
  · exact (congrArg (fun t : State => t.Loose b) state).mpr loose

end

end Sys2Proof.Machine
end

section
/-! The pool's laws through a reader role that is gained: TAKE, take service and direct delivery (R50, R56, R57, R59). -/

namespace Sys2Proof.Machine

section
variable {s : State} {w : Work} {p q : Port} {b : BufIx} {c : ChanIx} {E : List BufIx}

/-! ## A reader more -/

theorem maskHas_none (p : Port) : maskHas 0 p = false := maskHas_zero p

/-- A record that has got a port as reader. -/
structure BufRec.ReadNow (r r' : BufRec) (p : Port) : Prop where
  readers : ∃ l, r'.readers = r.readers ++ [{ port := p, lease := l }]
  holder : r'.holder = r.holder := by rfl
  pending : r'.pending = maskErase r.pending p := by rfl
  count : r'.bulkCount = r.bulkCount := by rfl
  length : r'.length = r.length := by rfl

section
variable {r r' : BufRec}

theorem BufRec.ReadNow.readBy (h : r.ReadNow r' p) (q : Port) : r'.readBy q = (r.readBy q || decide (q = p)) := by
  obtain ⟨l, readers⟩ := h.readers
  rw [BufRec.readBy, readers, List.any_append]
  exact congrArg (r.readBy q || ·) (Bool.eq_iff_iff.2 (by simpa using eq_comm))

theorem BufRec.ReadNow.heldBy (h : r.ReadNow r' p) (q : Port) : r'.heldBy q = r.heldBy q := by
  rw [BufRec.heldBy, BufRec.heldBy, h.holder]

theorem BufRec.ReadNow.sameRoles (h : r.ReadNow r' p) (other : q ≠ p) : r.SameRoles q r' :=
  ⟨h.heldBy q, by rw [h.readBy, decide_eq_false other, Bool.or_false]⟩

/-- A pending port is not a reader yet, and the record has no holder. -/
theorem BufRec.RolesLawful.noRole (h : r.RolesLawful) (pends : maskHas r.pending p = true) : r.roleOf p = false ∧ r.holder = none := by
  have holder : r.holder = none := by
    cases holder : r.holder with
    | none => rfl
    | some x =>
      rw [(h.held (by rw [holder]; rfl)).2, maskHas_none] at pends
      exact absurd pends Bool.false_ne_true
  refine ⟨?_, holder⟩
  rw [BufRec.roleOf, BufRec.heldBy, holder, Option.any_none, Bool.false_or]
  refine List.any_eq_false.2 fun e mem same => ?_
  rw [← eq_of_beq same, h.pending e mem] at pends
  exact Bool.false_ne_true pends

theorem BufRec.ReadNow.rolesLawful (h : r.ReadNow r' p) (lawful : r.RolesLawful) (pends : maskHas r.pending p = true) :
    r'.RolesLawful := by
  obtain ⟨l, readers⟩ := h.readers
  obtain ⟨noRole, holder⟩ := lawful.noRole pends
  rw [BufRec.roleOf, Bool.or_eq_false_iff] at noRole
  refine ⟨fun some => ?_, ?_, fun e mem => ?_, h.length ▸ lawful.length⟩
  · rw [h.holder, holder] at some
    exact nomatch some
  · rw [readers, List.map_append]
    refine List.nodup_append.2 ⟨lawful.readers, List.nodup_singleton p, fun x mem y one => ?_⟩
    obtain ⟨e, there, rfl⟩ := List.mem_map.1 mem
    rw [List.mem_singleton.1 one]
    exact fun same => List.any_eq_false.1 noRole.2 e there (beq_iff_eq.2 same)
  · rw [h.pending, maskHas_erase]
    rw [readers, List.mem_append, List.mem_singleton] at mem
    rcases mem with old | rfl
    · rw [lawful.pending e old, Bool.false_and]
    · rw [decide_eq_true rfl, Bool.not_true, Bool.and_false]

end

theorem destinations_of_status {x y : Chan} (status : y.status = x.status) : y.destinations = x.destinations := by
  rw [Chan.destinations, Chan.destinations, Chan.setup, Chan.setup, status]

/-- A channel that serves a port an entry: its status stays, its take waiters but for the port, and its queue but for the entry. -/
structure Chan.Serves (p : Port) (b : BufIx) (x y : Chan) : Prop where
  status : y.status = x.status := by rfl
  waits : ∀ q, q ≠ p → maskHas y.takeWaiters q = maskHas x.takeWaiters q
  queue : ∀ d, d ≠ b → (d ∈ y.queue ↔ d ∈ x.queue)
  lawful : y.Lawful

theorem mask_subset_iff (m n : PortMask) : m &&& ~~~n = 0 ↔ ∀ p, maskHas m p = true → maskHas n p = true := by
  rw [mask_eq_zero_iff]
  simp

/-- A channel stays lawful when waiters and entries leave. -/
theorem Chan.Lawful.shrink {x y : Chan} (h : x.Lawful) (status : y.status = x.status)
    (waits : ∀ q, maskHas y.takeWaiters q = true → maskHas x.takeWaiters q = true) (queue : y.queue.Sublist x.queue) : y.Lawful := by
  have setup : y.setup = x.setup := by rw [Chan.setup, Chan.setup, status]
  have none (off : x.takeWaiters = 0) : y.takeWaiters = 0 :=
    (mask_eq_zero_iff _).2 fun q => Bool.eq_false_iff.2 fun on => by
      have before := waits q on
      rw [off, maskHas_none] at before
      exact Bool.false_ne_true before
  constructor
  · rw [setup]
    exact fun closed => ⟨List.sublist_nil.1 ((h.closed closed).1 ▸ queue), none (h.closed closed).2⟩
  · rw [Chan.closer, status]
    exact fun closing => none (h.closing closing)
  · rw [Chan.destinations, setup, mask_subset_iff]
    exact fun q on => (mask_subset_iff _ _).1 h.waiters q (waits q on)
  · rw [setup]
    exact h.ports
  · rw [setup]
    exact fun u hu => ⟨(h.capacity u hu).1, (h.capacity u hu).2.1, queue.length_le.trans (h.capacity u hu).2.2⟩
  · rw [setup]
    exact h.unicast
  · exact h.nodup.sublist queue

/-- A pending port becomes a reader, by a channel that serves it; the entry's place is then to be set right. -/
theorem State.PoolBut.reads {f : BufRec → BufRec} {k : Chan → Chan} {g : PortState → PortState} (h : s.PoolBut (b :: E))
    (pends : maskHas (s.buf b).pending p = true) (read : (s.buf b).ReadNow (f (s.buf b)) p)
    (serves : (s.chan c).Serves p b (k (s.chan c))) (below : s.belowQuota p = true)
    (raised : ∃ e, g (s.port p) = { s.port p with charge := (s.port p).charge + 1, engine := e } ∧ e.bulk = (s.port p).engine.bulk)
    (control : (((s.modBuf b f).modChan c k).modPort p g).ControlLawful p) :
    (((s.modBuf b f).modChan c k).modPort p g).PoolBut (b :: E) := by
  obtain ⟨e, raise, mover⟩ := raised
  have port : (((s.modBuf b f).modChan c k).modPort p g).port p =
      { s.port p with charge := (s.port p).charge + 1, engine := e } := (port_modPort_same ..).trans raise
  have buf : (((s.modBuf b f).modChan c k).modPort p g).buf b = f (s.buf b) := buf_modBuf_same ..
  have bufOther {d : BufIx} (other : d ≠ b) : (((s.modBuf b f).modChan c k).modPort p g).buf d = s.buf d := buf_modBuf_other _ other _
  have laws := h.ports p
  obtain ⟨noRole, _⟩ := (h.records b).noRole pends
  have role : (f (s.buf b)).roleOf p = true := by rw [BufRec.roleOf, read.readBy, decide_eq_true rfl, Bool.or_true, Bool.or_true]
  have keepHeld (d : BufIx) (on : (s.buf d).heldBy p = true) :
      ((((s.modBuf b f).modChan c k).modPort p g).buf d).heldBy p = true := by
    by_cases same : d = b
    · rw [same, buf, read.heldBy, ← same]
      exact on
    · rwa [bufOther same]
  have keepRole (d : BufIx) (on : (s.buf d).roleOf p = true) :
      ((((s.modBuf b f).modChan c k).modPort p g).buf d).roleOf p = true := by
    by_cases same : d = b
    · rw [same, buf]
      exact role
    · rwa [bufOther same]
  have charge : (((s.modBuf b f).modChan c k).modPort p g).ChargeLawful p := by
    obtain ⟨count, _, limit⟩ := laws.charge
    have gain : (((s.modBuf b f).modChan c k).modPort p g).roleCount p = s.roleCount p + 1 :=
      roleCount_gain noRole (by rw [buf]; exact role) fun d other => by rw [bufOther other]
    rw [State.ChargeLawful, port, gain, ← count]
    exact ⟨rfl, (belowQuota_iff s p).1 below, limit⟩
  have touched := h.touch (t := ((s.modBuf b f).modChan c k).modPort p g) (p := p) (b := b)
    (fun q other => ((beyond_modBuf s (read.sameRoles other)).trans
      (beyond_modChan (s.modBuf b f) (seenBy_of_status serves.status (serves.waits q other)))).trans (beyond_modPort_other other _ g))
    ⟨control, charge, laws.rights.mono (by rw [port]) (by rw [port]) (by rw [port, mover]; exact fun _ => id) keepHeld keepRole⟩
    h.claims (by rw [buf]; exact read.rolesLawful (h.records b) pends) (by rw [buf]; exact read.count)
    (fun d => by
      by_cases same : d = c
      · rw [same, chan_modPort, chan_modChan_same]
        exact serves.lawful
      · rw [chan_modPort, chan_modChan_other _ same]
        exact h.channels d)
    h.frees
    (fun d other => ((leaves_modBuf other s f).trans (leaves_modChan (s.modBuf b f) (serves.queue d other) fun _ => destinations_of_status serves.status)).trans (leaves_modPort ..))
    (sameMovers_modPort ((s.modBuf b f).modChan c k) p (by
      show (g (s.port p)).engine.bulk.map _ = (s.port p).engine.bulk.map _
      rw [raise, mover]))
  exact touched.weaken fun d mem => by simpa using mem

/-! ## An entry is taken -/

/-- The record, and the channel, of an entry that a port takes. -/
def BufRec.takenBy (r : BufRec) (p : Port) (readLease : Word) : BufRec :=
  { r.readBegun p readLease with channel := if maskErase r.pending p = 0 then none else r.channel }
def Chan.without (x : Chan) (b : BufIx) (left : PortMask) : Chan := { x with queue := if left = 0 then x.queue.erase b else x.queue }

theorem takes_then_engine (s : State) (p : Port) (c : ChanIx) (b : BufIx) (g : Engine → Engine) : (s.takes p c b).modEngine p g =
    ((s.modBuf b fun r => r.takenBy p (s.port p).session.readLease).modChan c fun x =>
      x.without b (maskErase (s.buf b).pending p)).modPort p fun x => { x with charge := x.charge + 1, engine := g x.engine } := by
  unfold State.takes
  rw [modEngine_eq_modPort]
  simp only [modPort_modPort]
  rw [modBuf_congr s b (g := fun r => r.takenBy p (s.port p).session.readLease) rfl]
  rfl

theorem leaveTakeWait_takes_then_engine (s : State) (p : Port) (c : ChanIx) (b : BufIx) (g : Engine → Engine) :
    ((s.leaveTakeWait c p).takes p c b).modEngine p g =
      ((s.modBuf b fun r => r.takenBy p (s.port p).session.readLease).modChan c fun x =>
        (x.withoutWaiter p).without b (maskErase (s.buf b).pending p)).modPort p fun x =>
          { x with charge := x.charge + 1, engine := g x.engine } := by
  rw [takes_then_engine]
  unfold State.leaveTakeWait
  simp only [buf_modChan, port_modChan, modChan_modBuf_comm, modChan_modChan]
  rfl

theorem without_sublist (x : Chan) (b : BufIx) (left : PortMask) : (x.without b left).queue.Sublist x.queue := by
  unfold Chan.without
  simp only
  split
  · exact List.erase_sublist
  · exact List.Sublist.refl _

theorem mem_without {x : Chan} {d : BufIx} (other : d ≠ b) (left : PortMask) : d ∈ (x.without b left).queue ↔ d ∈ x.queue := by
  unfold Chan.without
  simp only
  split
  · exact List.mem_erase_of_ne other
  · rfl

theorem mem_without_self {x : Chan} (distinct : x.queue.Nodup) (left : PortMask) :
    b ∈ (x.without b left).queue ↔ left ≠ 0 ∧ b ∈ x.queue := by
  unfold Chan.without
  simp only
  split
  · rename_i none
    exact ⟨fun mem => absurd rfl ((List.Nodup.mem_erase_iff distinct).1 mem).1, fun h => absurd none h.1⟩
  · rename_i some
    exact ⟨fun mem => ⟨some, mem⟩, fun h => h.2⟩

/-- An entry of a queue that is pending for a port, as its laws show it. -/
structure State.EntryFor (s : State) (c : ChanIx) (b : BufIx) (p : Port) : Prop where
  linked : s.Linked b
  mem : b ∈ (s.chan c).queue
  pends : maskHas (s.buf b).pending p = true

/-- A taken entry stays in its queue while a port is pending for it. -/
theorem State.EntryFor.takenLinked {t : State} (h : s.EntryFor c b p)
    {lease : Word} (record : t.buf b = (s.buf b).takenBy p lease) (freeList : t.freeList = s.freeList)
    (queue : b ∈ (t.chan c).queue ↔ maskErase (s.buf b).pending p ≠ 0 ∧ b ∈ (s.chan c).queue)
    (others : ∀ d, d ≠ c → (t.chan d).queue = (s.chan d).queue)
    (lists : ∀ d, (t.chan d).destinations = (s.chan d).destinations) : t.Linked b := by
  have named := (h.linked.stands c).1 h.mem
  have only {d : ChanIx} (mem : b ∈ (s.chan d).queue) : d = c :=
    Option.some.inj (((h.linked.stands d).1 mem).symm.trans named)
  have pending : (t.buf b).pending = maskErase (s.buf b).pending p := by rw [record]; rfl
  have channel : (t.buf b).channel = if maskErase (s.buf b).pending p = 0 then none else (s.buf b).channel := by rw [record]; rfl
  refine ⟨⟨?_, fun d => ?_, fun d on => ?_⟩, ?_⟩
  · rw [channel, pending]
    by_cases left : maskErase (s.buf b).pending p = 0
    · rw [if_pos left]
      exact ⟨nofun, fun some => absurd left some⟩
    · rw [if_neg left, named]
      exact ⟨fun _ => left, fun _ => rfl⟩
  · rw [channel]
    by_cases same : d = c
    · rw [same, queue]
      by_cases left : maskErase (s.buf b).pending p = 0
      · rw [if_pos left]
        exact ⟨fun stays => absurd left stays.1, nofun⟩
      · rw [if_neg left]
        exact ⟨fun _ => named, fun _ => ⟨left, h.mem⟩⟩
    · rw [others d same]
      refine ⟨fun mem => absurd (only mem) same, fun on => ?_⟩
      split at on
      · exact nomatch on
      · exact (h.linked.stands d).2 on
  · rw [channel] at on
    split at on
    · exact nomatch on
    · have before := (mask_subset_iff _ _).1 (h.linked.pending d on)
      rw [pending, lists, mask_subset_iff]
      exact fun q more => before q (by rw [maskHas_erase, Bool.and_eq_true_iff] at more; exact more.1)
  · rw [freeList]
    have used : (s.buf b).state ≠ .free := fun free => by
      have none := (roles_of_unused ((state_free_iff _).1 free).1).2.2
      have pends := h.pends
      rw [none, maskHas_none] at pends
      exact Bool.false_ne_true pends
    refine ⟨fun mem => absurd (h.linked.free.1 mem) used, fun free => ?_⟩
    have readers := (roles_of_unused ((state_free_iff _).1 free).1).2.1
    rw [record] at readers
    exact absurd readers (by simp [BufRec.takenBy, BufRec.readBegun])

/-- A port takes the entry that is pending for it, and its engine ends its TAKE. -/
theorem State.PoolBut.takesBy {k : Chan → Chan} {g : Engine → Engine} (h : s.PoolBut E) (entry : s.EntryFor c b p)
    (below : s.belowQuota p = true) (op : s.Open p) (ended : (s.port p).engine.Ended (g (s.port p).engine))
    (bulk : (s.port p).engine.bulk = none) (serves : (s.chan c).Serves p b (k (s.chan c)))
    (queue : b ∈ (k (s.chan c)).queue ↔ maskErase (s.buf b).pending p ≠ 0 ∧ b ∈ (s.chan c).queue)
    (offClaims : p ∉ s.claimWait) (offTakes : ∀ d, ¬(s.modChan c k).TakeWaits p d) :
    (((s.modBuf b fun r => r.takenBy p (s.port p).session.readLease).modChan c k).modPort p fun x =>
      { x with charge := x.charge + 1, engine := g x.engine }).PoolBut E := by
  have chan (d : ChanIx) : (((s.modBuf b fun r => r.takenBy p (s.port p).session.readLease).modChan c k).modPort p fun x =>
      { x with charge := x.charge + 1, engine := g x.engine }).chan d = (s.modChan c k).chan d := rfl
  have record : (((s.modBuf b fun r => r.takenBy p (s.port p).session.readLease).modChan c k).modPort p fun x =>
      { x with charge := x.charge + 1, engine := g x.engine }).buf b =
        (s.buf b).takenBy p (s.port p).session.readLease :=
    buf_modBuf_same s b fun r => r.takenBy p (s.port p).session.readLease
  refine (State.PoolBut.reads (h.weaken fun d mem => List.mem_cons_of_mem _ mem) entry.pends
    { readers := ⟨_, rfl⟩ } serves below ⟨_, rfl, ended.bulk.trans bulk.symm⟩ ?_).close
      (entry.takenLinked record rfl ?_ (fun d other => ?_) fun d => ?_)
  · refine (h.ports p).control.ended op ?_ ?_ ?_ offClaims offTakes
    · rw [State.sessionState, port_modPort_same]
      rfl
    · rw [port_modPort_same]
      rfl
    · rw [port_modPort_same]
      exact ended
  · rw [chan, chan_modChan_same]
    exact queue
  · rw [chan, chan_modChan_other _ other]
  · rw [chan]
    by_cases same : d = c
    · rw [same, chan_modChan_same]
      exact destinations_of_status serves.status
    · rw [chan_modChan_other _ same]

/-- A port that runs a TAKE takes the entry at once. -/
theorem State.PoolBut.takes (h : s.PoolBut E) (entry : s.EntryFor c b p) (below : s.belowQuota p = true) (runs : s.Runs p)
    {g : Engine → Engine} (ended : (s.port p).engine.Ended (g (s.port p).engine)) : ((s.takes p c b).modEngine p g).PoolBut E := by
  have control := (h.ports p).control
  rw [takes_then_engine]
  refine h.takesBy (k := fun x => x.without b (maskErase (s.buf b).pending p)) entry below runs.op ended runs.bulk
    ⟨rfl, fun _ _ => rfl, fun d other => mem_without other _, (h.channels c).shrink rfl (fun _ => id) (without_sublist ..)⟩
    (mem_without_self (h.channels c).nodup _) (runs.offClaims control) fun d waits => runs.offTakes control d ?_
  by_cases same : d = c
  · rw [State.TakeWaits, same, chan_modChan_same] at waits
    rw [same]
    exact waits
  · rwa [State.TakeWaits, chan_modChan_other _ same] at waits

/-- A port that waits on a channel takes the entry. -/
theorem State.PoolBut.takesWaiting (h : s.PoolBut E) (entry : s.EntryFor c b p) (below : s.belowQuota p = true)
    (waits : s.TakeWaits p c) {g : Engine → Engine} (ended : (s.port p).engine.Ended (g (s.port p).engine)) :
    (((s.leaveTakeWait c p).takes p c b).modEngine p g).PoolBut E := by
  have control := (h.ports p).control
  have waiting := control.waiting.2 (.inr ⟨c, waits⟩)
  obtain ⟨offClaims, only⟩ := control.once c waits
  have erased (q : Port) : maskHas ((s.chan c).withoutWaiter p).takeWaiters q = (maskHas (s.chan c).takeWaiters q && !decide (q = p)) :=
    maskHas_erase ..
  rw [leaveTakeWait_takes_then_engine]
  refine h.takesBy (k := fun x => (x.withoutWaiter p).without b (maskErase (s.buf b).pending p)) entry below
    (open_of_waiting control waiting) ended (bulk_of_waiting control waiting)
    ⟨rfl, fun q other => (erased q).trans (by rw [decide_eq_false other]; exact Bool.and_true _),
      fun d other => mem_without (x := (s.chan c).withoutWaiter p) other _,
      (h.channels c).shrink rfl (fun q on => ?_) (without_sublist ((s.chan c).withoutWaiter p) ..)⟩
    (mem_without_self (x := (s.chan c).withoutWaiter p) (h.channels c).nodup _) offClaims fun d still => ?_
  · have before := (erased q).symm.trans on
    rw [Bool.and_eq_true_iff] at before
    exact before.1
  · by_cases same : d = c
    · rw [State.TakeWaits, same, chan_modChan_same] at still
      have gone := (erased p).symm.trans still
      rw [decide_eq_true rfl, Bool.not_true, Bool.and_false] at gone
      exact Bool.false_ne_true gone
    · rw [State.TakeWaits, chan_modChan_other _ same] at still
      exact same (only d still)

/-! ## Which entry a port takes (R56) -/

theorem maskHas_of_single {m n : PortMask} (single : (maskPorts m).length = 1) (on : maskHas m p = true) (sub : n &&& ~~~m = 0)
    (some : n ≠ 0) : maskHas n p = true := by
  obtain ⟨q, only⟩ := List.length_eq_one_iff.1 single
  have is (r : Port) (has : maskHas m r = true) : r = q := by
    rw [← mem_maskPorts, only] at has
    exact List.mem_singleton.1 has
  by_contra off
  refine some ((mask_eq_zero_iff n).2 fun r => Bool.eq_false_iff.2 fun has => off ?_)
  rwa [is p on, ← is r ((mask_subset_iff n m).1 sub r has)]

/-- The entry that is eligible for a destination of a channel is one pending for it. -/
theorem State.PoolBut.eligible (h : s.PoolBut []) (member : maskHas (s.chan c).destinations p = true)
    (found : s.eligible c p = some b) : s.EntryFor c b p := by
  have linked := h.linked b List.not_mem_nil
  unfold State.eligible at found
  split at found
  · exact nomatch found
  · rename_i u setup
    split at found
    · rename_i unicast
      have mem : b ∈ (s.chan c).queue := List.mem_of_mem_head? found
      have named := (linked.stands c).1 mem
      refine ⟨linked, mem, maskHas_of_single ?_ member (linked.pending c named) (linked.channel.1 (by rw [named]; rfl))⟩
      rw [destinations_of_setup setup]
      exact (h.channels c).unicast u setup unicast
    · exact ⟨linked, List.mem_of_find?_eq_some found, List.find?_some (p := fun b => maskHas (s.buf b).pending p) found⟩

theorem Chan.Lawful.member {x : Chan} (h : x.Lawful) (waits : maskHas x.takeWaiters p = true) : maskHas x.destinations p = true :=
  (mask_subset_iff _ _).1 h.waiters p waits

/-! ## The service of a port that may wait (R9, R59, R79, R162) -/

theorem takeWaitOf_spec (found : s.takeWaitOf p = some c) : s.TakeWaits p c :=
  List.find?_some (p := fun c => maskHas (s.chan c).takeWaiters p) found

theorem State.PoolBut.takeService (h : w.state.PoolBut []) : (w.takeService p).state.PoolBut [] := by
  unfold Work.takeService
  split
  · exact h
  · rename_i c found
    have waits := takeWaitOf_spec found
    split
    · rename_i below
      split
      · exact h
      · rename_i b eligible
        rw [giveEntry_eq]
        exact h.takesWaiting (h.eligible ((h.channels c).member waits) eligible) below waits
          (g := fun e => e.completed .ok ((w.state.buf b).takeWords b)) (completed_ended ..)
    · exact h

theorem State.PoolBut.serveWaiter (h : w.state.PoolBut []) : (w.serveWaiter p).state.PoolBut [] := by
  unfold Work.serveWaiter
  split
  · exact h.claimService
  · exact h.takeService

end

end Sys2Proof.Machine
end

section
/-! The pool's laws through the pool requests: CLAIM, RELEASE, ADOPT, QUERY and RENEW (2.5, R83). -/

namespace Sys2Proof.Machine

section
variable {s : State} {w : Work} {p q : Port} {b : BufIx} {c : ChanIx} {code : ReqCode} {E : List BufIx}

/-! ## What a granted request finds -/

/-- A request that is carried out finds its port open, its session admitting it, and its engine BUSY with it, with nothing begun. -/
structure State.Requested (s : State) (p : Port) (code : ReqCode) : Prop where
  runs : s.Runs p
  ready : (s.port p).engine.Ready code
  admitted : admits (s.sessionState p) code = true
  up : s.sessionState p ≠ .resetting

theorem not_detached_of_admits {x : SessionState} (h : admits x code = true) (other : code ≠ .attach) : x ≠ .detached := by
  rintro rfl
  exact other (eq_of_beq h)

/-- The requests that only an ACTIVE session admits (R25). -/
theorem active_of_admits {x : SessionState} (h : admits x code = true) (h1 : code ≠ .attach)
    (h2 : admits .quiesced code = false) : x = .active := by
  cases x with
  | active => rfl
  | detached => exact absurd rfl (not_detached_of_admits h h1)
  | quiesced => exact absurd (h2.symm.trans h) Bool.false_ne_true
  | resetting => exact nomatch h

theorem up_of_grants {op : TableOp} (h : s.grants (.re p) op = true) : s.sessionState p ≠ .resetting := fun resetting => by
  have offer := (grants_offer h).2
  simp only [State.offer, resetting, if_true] at offer
  exact nomatch offer

theorem requested_of_grants (h : s.ControlLawful p) (hg : s.grants (.re p) (.request code) = true) (other : code ≠ .attach) :
    s.Requested p code := by
  have ready := grants_ready hg
  have up := up_of_grants hg
  obtain ⟨r, hr, is⟩ := ready.request
  have admitted : admits (s.sessionState p) code = true := is ▸ h.session.admitted up r hr
  exact ⟨⟨open_of_not_resetting h (not_detached_of_admits admitted other) up, ready.state, ready.bulk⟩, ready, admitted, up⟩

theorem State.PoolBut.refuse (h : w.state.PoolBut E) (runs : w.state.Runs p) (e : ResultCode) : (w.refuse p e).state.PoolBut E :=
  h.complete runs ..

/-! ## Waits begin (R38, R56) -/

theorem beginWait_engine (s : State) (p : Port) : ((s.beginWait p).port p).engine =
    { (s.port p).engine with state := .waiting, timer := some (timerOf (s.operand p 1)), cancelMarker := false } := by
  rw [State.beginWait, modEngine_eq_modPort, port_modPort_same]

/-- An open, ACTIVE port of which nothing has begun waits, once it stands in one place. -/
theorem State.PoolBut.waits {t : State} (h : s.PoolBut E) (req : s.Requested p code) (which : code = .claim ∨ code = .take)
    (port : t.port p = (s.beginWait p).port p) (others : ∀ q, q ≠ p → s.Beyond t q) (leaves : ∀ b, s.Leaves t b)
    (claims : t.claimWait.Nodup) (channels : ∀ c, (t.chan c).Lawful) (frees : t.freeList.Nodup)
    (stands : p ∈ t.claimWait ∨ ∃ c, t.TakeWaits p c)
    (once : ∀ c, t.TakeWaits p c → p ∉ t.claimWait ∧ ∀ d, t.TakeWaits p d → d = c) : t.PoolBut E := by
  have laws := h.ports p
  have rest : t.port p = { s.port p with engine := ((s.beginWait p).port p).engine } := by
    rw [port, State.beginWait, modEngine_eq_modPort, port_modPort_same]
  have session : t.sessionState p = s.sessionState p := by rw [State.sessionState, rest]; rfl
  have active : s.sessionState p = .active := by
    rcases which with rfl | rfl
    · exact active_of_admits req.admitted nofun rfl
    · exact active_of_admits req.admitted nofun rfl
  have control : t.ControlLawful p := by
    refine controlLawful_of_open ?_ ?_ ?_ ?_ ?_ ?_ ?_ once
    · rw [State.Open, session, rest]
      exact req.runs.op
    · rw [rest, beginWait_engine]
      refine (Engine.Moves.waits _ _ ?_).lawful laws.control.engine
      rcases which with rfl | rfl
      · exact .inl req.ready
      · exact .inr req.ready
    · rw [session, rest, beginWait_engine]
      exact laws.control.session.admitted
    · rw [session]
      exact fun _ => .inl active
    · rw [session, rest]
      exact laws.control.teardown.runs
    · rw [rest]
      exact laws.control.teardown.start
    · rw [rest, beginWait_engine]
      exact ⟨fun _ => stands, fun _ => rfl⟩
  exact
    { ports := fun q => by
        by_cases same : q = p
        · subst same
          refine ⟨control, laws.charge.congr (by rw [rest]) (by rw [rest]) fun b => by rw [(leaves b).record],
            laws.rights.mono (by rw [rest]) (by rw [rest]) ?_ (fun b => by rw [(leaves b).record]; exact id)
              fun b => by rw [(leaves b).record]; exact id⟩
          rw [rest, beginWait_engine]
          exact fun _ => id
        · exact (h.ports q).beyond (others q same)
      claims := claims
      records := fun b => by
        rw [(leaves b).record]
        exact h.records b
      channels := channels
      frees := frees
      linked := fun b off => (h.linked b off).leaves (leaves b)
      bulk := h.bulk.congr (fun q => by
        by_cases same : q = p
        · rw [same, rest, beginWait_engine]
        · rw [(others q same).port.engine]) fun b => by rw [(leaves b).record] }

theorem beyond_beginWait (s : State) (other : q ≠ p) : s.Beyond (s.beginWait p) q := by
  rw [State.beginWait, modEngine_eq_modPort]
  exact beyond_modPort_other other ..

theorem leaves_beginWait (s : State) (p : Port) (b : BufIx) : s.Leaves (s.beginWait p) b := by
  rw [State.beginWait, modEngine_eq_modPort]
  exact leaves_modPort ..

theorem State.PoolBut.waitsForClaim (h : s.PoolBut E) (req : s.Requested p .claim) :
    ((s.beginWait p).setClaimWait (s.claimWait ++ [p])).PoolBut E := by
  have control := (h.ports p).control
  have off := req.runs.offClaims control
  refine h.waits req (.inl rfl) rfl (fun q other => (beyond_beginWait s other).trans (beyond_setClaimWait _ (by
      show q ∈ s.claimWait ++ [p] ↔ q ∈ s.claimWait
      simp [other]))) (fun b => (leaves_beginWait s p b).trans (leaves_setClaimWait ..)) ?_ h.channels h.frees ?_ fun c waits =>
    absurd waits (req.runs.offTakes control c)
  · exact List.nodup_append.2 ⟨h.claims, List.nodup_singleton p, fun x mem y one => by
      rw [List.mem_singleton.1 one]
      exact fun same => off (same ▸ mem)⟩
  · exact .inl (List.mem_append_right _ (List.mem_singleton_self p))

theorem State.PoolBut.waitsForTake {u : ChanSetup} (h : s.PoolBut E) (req : s.Requested p .take) (opened : (s.chan c).status = .opened u)
    (member : maskHas u.destinations p = true) :
    ((s.beginWait p).modChan c fun x => { x with takeWaiters := maskInsert x.takeWaiters p }).PoolBut E := by
  have control := (h.ports p).control
  have lawful := h.channels c
  have offTakes := req.runs.offTakes control
  have setup : (s.chan c).setup = some u := setup_of_opened opened
  have waiters (d : ChanIx) (q : Port) : maskHas (((s.beginWait p).modChan c fun x =>
      { x with takeWaiters := maskInsert x.takeWaiters p }).chan d).takeWaiters q =
        (maskHas (s.chan d).takeWaiters q || (decide (d = c) && decide (q = p))) := by
    by_cases same : d = c
    · rw [same, chan_modChan_same, maskHas_insert, decide_eq_true rfl, Bool.true_and]
      rfl
    · rw [chan_modChan_other _ same, decide_eq_false same, Bool.false_and, Bool.or_false]
      rfl
  have takes (d : ChanIx) : ((s.beginWait p).modChan c fun x =>
      { x with takeWaiters := maskInsert x.takeWaiters p }).TakeWaits p d ↔ d = c := by
    rw [State.TakeWaits, waiters, Bool.eq_false_iff.2 (offTakes d)]
    simp
  refine h.waits req (.inr rfl) rfl (fun q other => (beyond_beginWait s other).trans (beyond_modChan _ (seenBy_of_status rfl (by
      rw [maskHas_insert, decide_eq_false other, Bool.or_false]))))
    (fun b => (leaves_beginWait s p b).trans (leaves_modChan _ Iff.rfl fun _ => rfl)) h.claims (fun d => ?_) h.frees
    (.inr ⟨c, (takes c).2 rfl⟩) fun d waits => ⟨req.runs.offClaims control, fun e waits' => ?_⟩
  · by_cases same : d = c
    · rw [same, chan_modChan_same]
      refine ⟨fun closed => absurd (closed.symm.trans setup) nofun, fun closing => ?_, ?_, lawful.ports, lawful.capacity, lawful.unicast,
        lawful.nodup⟩
      · have none : (s.chan c).closer = none := by rw [Chan.closer, opened]
        have closing' : (s.chan c).closer.isSome = true := closing
        rw [none] at closing'
        exact nomatch closing'
      · refine (mask_subset_iff _ _).2 fun q on => ?_
        have lists : maskHas (s.chan c).destinations p = true := by rw [destinations_of_setup setup]; exact member
        rw [maskHas_insert, Bool.or_eq_true, decide_eq_true_eq] at on
        rcases on with before | rfl
        · exact lawful.member before
        · exact lists
    · rw [chan_modChan_other _ same]
      exact h.channels d
  · rw [(takes d).1 waits, (takes e).1 waits']

/-! ## CLAIM (R37, R38) -/

theorem State.PoolBut.claim (h : w.state.PoolBut []) (req : w.state.Requested p .claim) : (w.claim p).state.PoolBut [] := by
  have control := (h.ports p).control
  unfold Work.claim
  split
  · exact h.refuse req.runs _
  · rename_i below
    have below : w.state.belowQuota p = true := by simpa using below
    split
    · rename_i b rest list
      obtain ⟨taken, loose, unused⟩ := h.takeFree list
      obtain ⟨g, state, ends⟩ := claimGiven_state (w.map fun s => (s.handOut p b).setFreeList rest) p b false
      rw [state]
      exact taken.handOut (l := w.state.claimWait) loose unused h.claims (fun _ _ => Iff.rfl) below req.runs.op
        (ends _ (congrArg Engine.claimsZero (handOut_engine w.state p p b).symm) control.engine req.runs.bulk) req.runs.bulk
        (req.runs.offClaims control) (req.runs.offTakes control)
    · split
      · exact h.refuse req.runs _
      · exact h.waitsForClaim req

/-! ## RELEASE (R39, R40) -/

theorem unmapOf_mapped {x : Window} {v : View} (h : x.unmapOf b = .mapped v) : x = .mapped v ∧ handleIx v.handle ≠ b := by
  unfold Window.unmapOf at h
  split at h
  · exact nomatch h
  · rename_i off
    refine ⟨h, fun same => off ?_⟩
    rw [h]
    exact beq_iff_eq.2 same

theorem givesUp_drops (x : PortState) (b : BufIx) : x.Drops (x.givesUp b) b where
  charge := rfl
  engine := ⟨id, by rw [Option.map_id]; rfl, fun _ => rfl⟩
  windowA off := by rw [PortState.givesUp, off]; rfl
  windowB off := by rw [PortState.givesUp, off]; rfl
  windows w v mapped := by
    cases w
    · exact unmapOf_mapped mapped
    · exact unmapOf_mapped mapped

/-- A port that runs a request keeps running it while it gives up a role. -/
theorem State.Runs.givesUp (runs : s.Runs p) (f : BufRec → BufRec) : ((s.modBuf b f).modPort p fun x => x.givesUp b).Runs p := by
  have port : ((s.modBuf b f).modPort p fun x => x.givesUp b).port p = (s.port p).givesUp b := port_modPort_same ..
  constructor
  · rw [State.Open, State.sessionState, port]
    exact runs.op
  · rw [port]
    exact runs.state
  · rw [port]
    exact runs.bulk

theorem givesUp_state (s : State) (p : Port) (b : BufIx) (f : BufRec → BufRec) :
    (((s.modBuf b f).unmapWindows p b).lowerCharge p) = (s.modBuf b f).modPort p fun x => x.givesUp b := givesUp_of_unmap ..

theorem no_mover (runs : s.Runs p) {m : Bulk} {a : Prop} (hm : m ∈ (s.port p).engine.bulk) : a := by
  rw [runs.bulk] at hm
  exact nomatch hm

theorem State.PoolBut.releaseHolding (h : w.state.PoolBut E) (off : b ∉ E) (runs : w.state.Runs p)
    (held : (w.state.buf b).heldBy p = true) : (w.releaseHolding p b).state.PoolBut E := by
  unfold Work.releaseHolding
  split
  · exact h.refuse runs _
  · rename_i idle
    obtain ⟨lost, loose⟩ := h.losesHolding (g := fun x => x.givesUp b) off held (givesUp_drops ..) fun m hm _ _ => no_mover runs hm
    have runs' := runs.givesUp (b := b) BufRec.unheld
    have readers := (h.records b).held (by
      obtain ⟨x, holder, _⟩ : ∃ x, (w.state.buf b).holder = some x ∧ x.port = p := by
        simpa [BufRec.heldBy, Option.any_eq_true] using held
      rw [holder]
      rfl)
    rw [← givesUp_state] at lost loose runs'
    have record : (((w.state.modBuf b BufRec.unheld).unmapWindows p b).lowerCharge p).buf b = (w.state.buf b).unheld :=
      buf_modBuf_same w.state b BufRec.unheld
    refine (State.PoolBut.enterFree (w := w.map fun s => ((s.modBuf b BufRec.unheld).unmapWindows p b).lowerCharge p) lost loose ?_
      ?_).complete (enterFree_runs (lost.ports p).control runs' b) ..
    · show BufRec.unused ((((w.state.modBuf b BufRec.unheld).unmapWindows p b).lowerCharge p).buf b) = true
      rw [record]
      simp [BufRec.unused, BufRec.unheld, readers.1, readers.2]
    · show BufRec.bulkCount ((((w.state.modBuf b BufRec.unheld).unmapWindows p b).lowerCharge p).buf b) = 0
      rw [record]
      exact not_not.1 idle

theorem State.PoolBut.releaseReader (h : w.state.PoolBut E) (off : b ∉ E) (runs : w.state.Runs p)
    (reads : (w.state.buf b).readBy p = true) : (w.releaseReader p b).state.PoolBut E := by
  obtain ⟨lost, loose⟩ := h.losesReader (g := fun x => x.givesUp b) off reads (givesUp_drops ..) fun m hm _ _ => no_mover runs hm
  have runs' := runs.givesUp (b := b) fun r => r.unread p
  rw [← givesUp_state] at lost loose runs'
  exact (State.PoolBut.lastUse (w := w.map fun s => ((s.modBuf b fun r => r.unread p).unmapWindows p b).lowerCharge p) lost
    loose).complete (lastUse_runs (lost.ports p).control runs' b) ..

theorem State.PoolBut.release (h : w.state.PoolBut []) (runs : w.state.Runs p) : (w.release p).state.PoolBut [] := by
  unfold Work.release
  simp only
  split
  · exact h.refuse runs _
  · split
    · rename_i held
      exact h.releaseHolding List.not_mem_nil runs held
    · split
      · rename_i reads
        exact h.releaseReader List.not_mem_nil runs reads
      · exact h.refuse runs _

/-! ## ADOPT (R41), QUERY (R42) and RENEW (R83) -/

theorem State.Runs.modBuf (runs : s.Runs p) (f : BufRec → BufRec) : (s.modBuf b f).Runs p := ⟨runs.op, runs.state, runs.bulk⟩

/-- The sole reader of a buffer with nothing pending becomes its holder. -/
theorem State.PoolBut.adopts {f : BufRec → BufRec} (h : s.PoolBut E) (off : b ∉ E) (reads : (s.buf b).readBy p = true)
    (sole : (s.buf b).readers.length = 1) (none : (s.buf b).pending = 0)
    (holder : ∃ l, (f (s.buf b)).holder = some { port := p, lease := l }) (readers : (f (s.buf b)).readers = [])
    (rest : (f (s.buf b)).pending = (s.buf b).pending ∧ (f (s.buf b)).channel = (s.buf b).channel ∧
      (f (s.buf b)).bulkCount = (s.buf b).bulkCount ∧ (f (s.buf b)).length = (s.buf b).length) : (s.modBuf b f).PoolBut E := by
  obtain ⟨l, holder⟩ := holder
  obtain ⟨pending, channel, count, length⟩ := rest
  obtain ⟨x, only⟩ := List.length_eq_one_iff.1 sole
  have reader (q : Port) : (s.buf b).readBy q = decide (q = p) := by
    rw [BufRec.readBy, only] at reads
    rw [BufRec.readBy, only]
    have is : x.port = p := by simpa using reads
    exact Bool.eq_iff_iff.2 (by simpa [is] using eq_comm)
  have unheld : (s.buf b).holder = Option.none := (h.records b).exclusive (by rw [only]; exact nofun)
  have before (q : Port) : (s.buf b).roleOf q = decide (q = p) := by
    rw [BufRec.roleOf, BufRec.heldBy, unheld, reader]
    rfl
  have held (q : Port) : (f (s.buf b)).heldBy q = decide (q = p) := by
    rw [BufRec.heldBy, holder, Option.any_some]
    exact Bool.eq_iff_iff.2 (by simpa using eq_comm)
  have after (q : Port) : (f (s.buf b)).roleOf q = decide (q = p) := by
    rw [BufRec.roleOf, held, BufRec.readBy, readers]
    exact Bool.or_false _
  have buf : (s.modBuf b f).buf b = f (s.buf b) := buf_modBuf_same ..
  have roles (d : BufIx) (q : Port) : ((s.modBuf b f).buf d).roleOf q = (s.buf d).roleOf q := by
    by_cases same : d = b
    · rw [same, buf, after, before]
    · rw [buf_modBuf_other _ same]
  have laws := h.ports p
  have own : (s.modBuf b f).PortLawful p :=
    { control := State.ControlLawful.frame (s := s)
        { session := rfl, teardown := rfl, engine := laws.control.engine, state := rfl, request := rfl, mover := rfl
          windowA := id, windowB := id, roles := fun d => by rw [roles]; exact id, claims := Iff.rfl
          chans := fun _ => seenBy_refl .. } laws.control
      charge := laws.charge.congr rfl rfl fun d => roles d p
      rights := laws.rights.mono rfl rfl (fun _ => id) (fun d on => by
        by_cases same : d = b
        · rw [same, buf, held]
          exact decide_eq_true rfl
        · rwa [buf_modBuf_other _ same]) fun d => by rw [roles]; exact id }
  refine ((h.touch (t := s.modBuf b f) (p := p) (b := b) (fun q other => beyond_modBuf s ⟨?_, ?_⟩) own h.claims
    (by rw [buf]; exact ⟨fun _ => ⟨readers, pending.trans none⟩, by rw [readers]; exact List.nodup_nil, by rw [readers]; exact nofun,
      length ▸ (h.records b).length⟩) (by rw [buf]; exact count) h.channels h.frees
    (fun d other => leaves_modBuf other s f) (sameMovers_refl s))).close
      ⟨(h.linked b off).toQueued.congr (by rw [buf]; exact channel) (by rw [buf]; exact pending) (fun _ => Iff.rfl) fun _ _ => rfl, ?_⟩
  · rw [held, BufRec.heldBy, unheld, decide_eq_false other]
    rfl
  · rw [reader, BufRec.readBy, readers, decide_eq_false other]
    rfl
  · rw [buf]
    have role : (s.buf b).roleOf p = true := by rw [before, decide_eq_true rfl]
    have role' : (f (s.buf b)).roleOf p = true := by rw [after, decide_eq_true rfl]
    exact ⟨fun mem => absurd ((h.linked b off).free.1 mem) (role_not_free role), fun free => absurd free (role_not_free role')⟩

theorem adoptRefusal_checks (h : s.adoptRefusal p = none) : (s.buf (handleIx (s.operand p 0))).readBy p = true ∧
    (s.buf (handleIx (s.operand p 0))).readers.length = 1 ∧ (s.buf (handleIx (s.operand p 0))).pending = 0 := by
  unfold State.adoptRefusal at h
  simp only at h
  split at h
  · exact nomatch h
  · split at h
    · exact nomatch h
    · rename_i reads
      split at h
      · exact nomatch h
      · rename_i sole
        split at h
        · exact nomatch h
        · rename_i none
          exact ⟨by simpa using reads, not_not.1 sole, not_not.1 none⟩

theorem State.PoolBut.adopt (h : w.state.PoolBut []) (runs : w.state.Runs p) : (w.adopt p).state.PoolBut [] := by
  unfold Work.adopt
  split
  · exact h.refuse runs _
  · rename_i accepted
    obtain ⟨reads, sole, none⟩ := adoptRefusal_checks accepted
    exact State.PoolBut.complete (w := w.map fun s => s.modBuf _ _)
      (h.adopts List.not_mem_nil reads sole none ⟨_, rfl⟩ rfl ⟨rfl, rfl, rfl, rfl⟩) (runs.modBuf _) ..

theorem State.PoolBut.query (h : w.state.PoolBut E) (runs : w.state.Runs p) : (w.query p).state.PoolBut E := by
  unfold Work.query
  simp only
  split
  · exact h.refuse runs _
  · exact h.complete runs ..

/-- A record that keeps everyone's roles, its place and its use. -/
structure BufRec.Keeps (r r' : BufRec) : Prop where
  roles : ∀ q, r.SameRoles q r'
  ports : r'.readers.map Role.port = r.readers.map Role.port
  holder : r'.holder.isSome = r.holder.isSome
  pending : r'.pending = r.pending := by rfl
  channel : r'.channel = r.channel := by rfl
  count : r'.bulkCount = r.bulkCount := by rfl
  length : r'.length = r.length := by rfl

theorem BufRec.Keeps.readers {r r' : BufRec} (h : r.Keeps r') : r'.readers = [] ↔ r.readers = [] := by
  rw [← List.map_eq_nil_iff (f := Role.port), h.ports, List.map_eq_nil_iff]

theorem BufRec.Keeps.rolesLawful {r r' : BufRec} (h : r.Keeps r') (lawful : r.RolesLawful) : r'.RolesLawful where
  held := by
    rw [h.holder, h.pending, h.readers]
    exact lawful.held
  readers := h.ports ▸ lawful.readers
  pending e mem := by
    have there : e.port ∈ r.readers.map Role.port := h.ports ▸ List.mem_map_of_mem mem
    obtain ⟨e', mem', same⟩ := List.mem_map.1 there
    rw [h.pending, ← same]
    exact lawful.pending e' mem'
  length := h.length ▸ lawful.length

theorem BufRec.Keeps.state {r r' : BufRec} (h : r.Keeps r') : r'.state = .free ↔ r.state = .free := by
  have holder : r'.holder.isNone = r.holder.isNone := by
    rw [← Option.not_isSome, ← Option.not_isSome, h.holder]
  rw [state_free_iff, state_free_iff, BufRec.unused, BufRec.unused, holder, h.pending, h.count]
  simp only [Bool.and_eq_true, List.isEmpty_iff, h.readers]

theorem keeps_refl (r : BufRec) : r.Keeps r where
  roles _ := ⟨rfl, rfl⟩
  ports := rfl
  holder := rfl

/-- The records keep what the laws look at, and the rest of the pool stays. -/
theorem State.PoolBut.keeps {t : State} (h : s.PoolBut E) (records : ∀ b, (s.buf b).Keeps (t.buf b)) (freeList : t.freeList = s.freeList)
    (claimWait : t.claimWait = s.claimWait) (channels : t.channels = s.channels) (ports : ∀ p, (s.port p).Alike (t.port p)) :
    t.PoolBut E := by
  have chan (c : ChanIx) : t.chan c = s.chan c := by rw [State.chan, State.chan, channels]
  exact
    { ports := fun q => (h.ports q).beyond ⟨ports q, fun b => (records b).roles q, by rw [claimWait], fun c => by
        rw [chan]
        exact seenBy_refl ..⟩
      claims := claimWait ▸ h.claims
      records := fun b => (records b).rolesLawful (h.records b)
      channels := fun c => by
        rw [chan]
        exact h.channels c
      frees := freeList ▸ h.frees
      linked := fun b off =>
        ⟨(h.linked b off).toQueued.congr (records b).channel (records b).pending (fun c => by rw [chan]) fun c _ => by rw [chan], by
          rw [freeList, (records b).state]
          exact (h.linked b off).free⟩
      bulk := h.bulk.congr (sameMovers_of_alike ports) fun b => (records b).count }

theorem State.PoolBut.modBufKeeps {f : BufRec → BufRec} (h : s.PoolBut E) (keeps : (s.buf b).Keeps (f (s.buf b))) :
    (s.modBuf b f).PoolBut E :=
  h.keeps (fun d => by
    by_cases same : d = b
    · rw [same, buf_modBuf_same]
      exact keeps
    · rw [buf_modBuf_other _ same]
      exact keeps_refl _) rfl rfl rfl fun _ => alike_refl _

/-- New leases leave a record's roles. -/
theorem keeps_of_leases (r : BufRec) (f g : Role → Role) (hf : ∀ x, (f x).port = x.port) (hg : ∀ x, (g x).port = x.port) :
    r.Keeps { r with holder := r.holder.map f, readers := r.readers.map g } where
  roles q := by
    constructor
    · rw [BufRec.heldBy, BufRec.heldBy]
      cases r.holder with
      | none => rfl
      | some x => exact congrArg (· == q) (hf x)
    · rw [BufRec.readBy, BufRec.readBy, List.any_map]
      exact congrArg r.readers.any (funext fun x => congrArg (· == q) (hg x))
  ports := by
    rw [List.map_map]
    exact List.map_congr_left fun x _ => hg x
  holder := Option.isSome_map ..

theorem setLease_keeps (r : BufRec) (p : Port) (l : Option Lease) : r.Keeps (r.setLease p l) := by
  unfold BufRec.setLease
  split
  · have same := keeps_of_leases r (fun h => { h with lease := l }) id (fun _ => rfl) fun _ => rfl
    rwa [List.map_id] at same
  · have same := keeps_of_leases r id (fun e => if e.port = p then { e with lease := l } else e) (fun _ => rfl) fun x => by
      split <;> rfl
    rwa [Option.map_id] at same

theorem State.PoolBut.renew (h : w.state.PoolBut E) (runs : w.state.Runs p) : (w.renew p).state.PoolBut E := by
  unfold Work.renew
  simp only
  split
  · exact h.refuse runs _
  · split
    · exact h.refuse runs _
    · exact State.PoolBut.complete (w := w.map fun s => s.modBuf _ _) (h.modBufKeeps (setLease_keeps ..)) (runs.modBuf _) ..

end

end Sys2Proof.Machine
end

section
/-! The pool's laws through the channel requests that move no entry in: OPEN_CHANNEL, TAKE, CHANNEL_STATUS, CLOSE_CHANNEL and the steps of
a close (R46, R56, R60 to R63), and the ends of waits (R34, R70). -/

namespace Sys2Proof.Machine

section
variable {s t : State} {w : Work} {p q : Port} {b : BufIx} {c : ChanIx} {code : ReqCode} {E : List BufIx}

/-! ## Changes of channels, as an open port sees them -/

/-- What an open port's laws see of the channels is which it waits on. -/
theorem State.PortLawful.opened (h : s.PortLawful p) (op : s.Open p) (port : (s.port p).Alike (t.port p))
    (roles : ∀ b, (s.buf b).SameRoles p (t.buf b)) (claims : p ∈ t.claimWait ↔ p ∈ s.claimWait)
    (waits : ∀ c, maskHas (t.chan c).takeWaiters p = maskHas (s.chan c).takeWaiters p) : t.PortLawful p where
  control := by
    have takes (c : ChanIx) : t.TakeWaits p c ↔ s.TakeWaits p c := by rw [State.TakeWaits, State.TakeWaits, waits]
    have session : t.sessionState p = s.sessionState p := port.session
    refine controlLawful_of_open ?_ ?_ ?_ ?_ ?_ ?_ ?_ ?_
    · rw [State.Open, session, port.teardown]
      exact op
    · rw [port.engine]
      exact h.control.engine
    · rw [session, port.engine]
      exact h.control.session.admitted
    · rw [session, port.engine]
      exact h.control.session.running
    · rw [session, port.teardown]
      exact h.control.teardown.runs
    · rw [port.teardown]
      exact h.control.teardown.start
    · simp only [takes, claims, port.engine]
      exact h.control.waiting
    · simp only [takes, claims]
      exact h.control.once
  charge := h.charge.congr port.charge port.quota fun b => (roles b).roleOf
  rights := h.rights.mono port.windowA port.windowB (by rw [port.engine]; exact fun _ => id)
    (fun b => by rw [(roles b).1]; exact id) fun b => by rw [(roles b).roleOf]; exact id

/-- A change of one channel that keeps its waiters and its queue: each port is open, or sees nothing new in it. -/
theorem State.PoolBut.modChan {f : Chan → Chan} (h : s.PoolBut E)
    (ports : ∀ q, s.Open q ∨ (s.chan c).SeenBy q (f (s.chan c)))
    (waits : (f (s.chan c)).takeWaiters = (s.chan c).takeWaiters) (queue : (f (s.chan c)).queue = (s.chan c).queue)
    (lists : (s.chan c).queue ≠ [] → (f (s.chan c)).destinations = (s.chan c).destinations) (lawful : (f (s.chan c)).Lawful) :
    (s.modChan c f).PoolBut E where
  ports q := by
    rcases ports q with op | seen
    · refine (h.ports q).opened op (alike_refl _) (fun _ => ⟨rfl, rfl⟩) Iff.rfl fun d => ?_
      by_cases same : d = c
      · rw [same, chan_modChan_same, waits]
      · rw [chan_modChan_other _ same]
    · exact (h.ports q).beyond (beyond_modChan s seen)
  claims := h.claims
  records := h.records
  channels d := by
    by_cases same : d = c
    · rw [same, chan_modChan_same]
      exact lawful
    · rw [chan_modChan_other _ same]
      exact h.channels d
  frees := h.frees
  linked b off := (h.linked b off).leaves (leaves_modChan s (by rw [queue]) fun mem => lists (List.ne_nil_of_mem mem))
  bulk := h.bulk

/-! ## OPEN_CHANNEL (R46, R47) -/

theorem openRefusal_checks (h : s.openRefusal p = none) (operand : channelOperand (s.operand p 0) = some c) :
    (s.chan c).status = .closed ∧ (setupOperand (s.operands p)).destinationsSuit = true ∧
      maskHas (setupOperand (s.operands p)).destinations p = true ∧
      (∀ q, maskHas (setupOperand (s.operands p)).destinations q = true → s.attached q = true) ∧
      (setupOperand (s.operands p)).sources ≠ 0 ∧ 1 ≤ (setupOperand (s.operands p)).capacity ∧
      (setupOperand (s.operands p)).capacity ≤ 255 := by
  unfold State.openRefusal at h
  simp only [operand] at h
  split at h
  · exact nomatch h
  · rename_i closed
    split at h
    · exact nomatch h
    · rename_i suit
      split at h
      · exact nomatch h
      · rename_i member
        split at h
        · exact nomatch h
        · rename_i attached
          split at h
          · exact nomatch h
          · rename_i limits
            simp only [Bool.not_eq_true', Bool.not_eq_false, List.all_eq_true, mem_maskPorts] at suit member attached
            simp only [Bool.or_eq_true, decide_eq_true_eq, not_or, not_lt] at limits
            exact ⟨not_not.1 closed, suit, member, attached, limits.1.1, limits.1.2, limits.2⟩

theorem opened_lawful {u : ChanSetup} (suit : u.destinationsSuit = true) (member : maskHas u.destinations p = true)
    (sources : u.sources ≠ 0) (capacity : 1 ≤ u.capacity ∧ u.capacity ≤ 255) :
    Chan.Lawful { status := .opened u, queue := [], takeWaiters := 0 } where
  closed := nofun
  closing := nofun
  waiters := BitVec.zero_and
  ports v hv := by
    obtain rfl := Option.some.inj hv
    refine ⟨fun none => ?_, sources⟩
    rw [none, maskHas_none] at member
    exact Bool.false_ne_true member
  capacity v hv := by
    obtain rfl := Option.some.inj hv
    exact ⟨capacity.1, capacity.2, Nat.zero_le _⟩
  unicast v hv kind := by
    obtain rfl := Option.some.inj hv
    rw [ChanSetup.destinationsSuit, kind] at suit
    exact eq_of_beq suit
  nodup := List.nodup_nil

/-- A port that a channel does not list, and that does not close it, sees nothing in it. -/
theorem seenBy_of_nothing {x y : Chan} (waits : maskHas y.takeWaiters p = maskHas x.takeWaiters p)
    (lists : maskHas y.destinations p = false) (closer : y.closer ≠ some p) : x.SeenBy p y := by
  have none (f : ChanSetup → Bool) : (y.setup.any fun u => f u && maskHas u.destinations p) = false := by
    rw [Chan.destinations] at lists
    cases setup : y.setup with
    | none => rfl
    | some u =>
      rw [setup] at lists
      exact (congrArg (f u && ·) lists).trans (Bool.and_false _)
  have unicast : y.unicastTo p = false := none fun u => u.kind == .unicast
  have concerns : y.concerns p = false := by
    rw [Chan.concerns, none fun u => u.kind == .fanout, Bool.or_false]
    exact beq_eq_false_iff_ne.2 closer
  refine ⟨waits, fun h => ?_, fun h => ?_, fun h => ?_, fun _ h => ?_⟩
  · exact absurd (lists.symm.trans h) Bool.false_ne_true
  · exact absurd (unicast.symm.trans h) Bool.false_ne_true
  · exact absurd (concerns.symm.trans h) Bool.false_ne_true
  · rcases h with h | h
    · exact absurd (unicast.symm.trans h) Bool.false_ne_true
    · exact absurd (concerns.symm.trans h) Bool.false_ne_true

theorem setup_of_closed {x : Chan} (h : x.status = .closed) : x.setup = none := by rw [Chan.setup, h]

theorem State.Runs.placeAll (runs : s.Runs p) (ps : List Port) (r : Record) : (s.placeAll ps r).Runs p :=
  placeAll_induct (fun t q (h : t.Runs p) => h.alike (beyond_place t q r p).port) ps s runs

theorem State.PoolBut.openChannel (h : w.state.PoolBut E) (runs : w.state.Runs p) : (w.openChannel p).state.PoolBut E := by
  unfold Work.openChannel
  split
  · exact h.refuse runs _
  · exact h
  · rename_i c accepted operand
    obtain ⟨closed, suit, member, attached, sources, capacity⟩ := openRefusal_checks accepted operand
    obtain ⟨queue, waiters⟩ := (h.channels c).closed (setup_of_closed closed)
    have opened : (w.state.setChan c
        { status := .opened (setupOperand (w.state.operands p)), queue := [], takeWaiters := 0 }).PoolBut E := by
      rw [setChan_eq_modChan]
      refine h.modChan (fun q => ?_) waiters.symm queue.symm (fun some => absurd queue some) (opened_lawful suit member sources capacity)
      by_cases lists : maskHas (setupOperand (w.state.operands p)).destinations q = true
      · exact .inl (open_of_attached (h.ports q).control (attached q lists))
      · exact .inr (seenBy_of_nothing (by rw [waiters]) (Bool.eq_false_iff.2 lists) nofun)
    have runs' : (w.state.setChan c
        { status := .opened (setupOperand (w.state.operands p)), queue := [], takeWaiters := 0 }).Runs p :=
      ⟨runs.op, runs.state, runs.bulk⟩
    exact State.PoolBut.complete (w := w.map fun s => State.placeAll _ _ _) (opened.placeAll _ _) (runs'.placeAll _ _) ..

/-! ## TAKE (R56, R57) and CHANNEL_STATUS (R66) -/

theorem takeRefusal_checks (h : s.takeRefusal p = none) (operand : channelOperand (s.operand p 0) = some c) :
    ∃ u, (s.chan c).status = .opened u ∧ maskHas u.destinations p = true ∧ s.belowQuota p = true := by
  unfold State.takeRefusal at h
  simp only [operand] at h
  split at h
  · rename_i u opened
    split at h
    · exact nomatch h
    · rename_i member
      split at h
      · exact nomatch h
      · rename_i below
        exact ⟨u, opened, by simpa using member, by simpa using below⟩
  · exact nomatch h

theorem State.PoolBut.take (h : w.state.PoolBut []) (req : w.state.Requested p .take) : (w.take p).state.PoolBut [] := by
  unfold Work.take
  split
  · exact h.refuse req.runs _
  · exact h
  · rename_i c accepted operand
    obtain ⟨u, opened, member, below⟩ := takeRefusal_checks accepted operand
    split
    · rename_i b eligible
      rw [giveEntry_eq]
      exact h.takes (h.eligible (by rw [destinations_of_setup (setup_of_opened opened)]; exact member) eligible) below req.runs
        (g := fun e => e.completed .ok ((w.state.buf b).takeWords b)) (completed_ended ..)
    · split
      · exact h.refuse req.runs _
      · exact h.waitsForTake req opened member

theorem State.PoolBut.channelStatus (h : w.state.PoolBut E) (runs : w.state.Runs p) : (w.channelStatus p).state.PoolBut E := by
  unfold Work.channelStatus
  split
  · exact h.refuse runs _
  · exact h.complete runs ..

/-! ## Waits end (R34, R60, R70) -/

/-- A waiting port leaves the list it stands in and its engine ends its request. -/
theorem State.PoolBut.waitEnds (h : s.PoolBut E) (waiting : (s.port p).engine.state = .waiting) {g : Engine → Engine}
    (ended : (s.port p).engine.Ended (g (s.port p).engine)) (port : t.port p = { s.port p with engine := g (s.port p).engine })
    (others : ∀ q, q ≠ p → s.Beyond t q) (leaves : ∀ b, s.Leaves t b) (claims : t.claimWait.Nodup) (channels : ∀ c, (t.chan c).Lawful)
    (frees : t.freeList.Nodup) (offClaims : p ∉ t.claimWait) (offTakes : ∀ c, ¬t.TakeWaits p c) : t.PoolBut E := by
  have laws := h.ports p
  have bulk := bulk_of_waiting laws.control waiting
  exact
    { ports := fun q => by
        by_cases same : q = p
        · subst same
          refine ⟨laws.control.ended (open_of_waiting laws.control waiting) ?_ ?_ ?_ offClaims offTakes,
            laws.charge.congr (by rw [port]) (by rw [port]) fun b => by rw [(leaves b).record],
            laws.rights.mono (by rw [port]) (by rw [port]) ?_ (fun b => by rw [(leaves b).record]; exact id)
              fun b => by rw [(leaves b).record]; exact id⟩
          · rw [State.sessionState, port]
            rfl
          · rw [port]
          · rw [port]
            exact ended
          · rw [port, ended.bulk]
            exact nofun
        · exact (h.ports q).beyond (others q same)
      claims := claims
      records := fun b => by
        rw [(leaves b).record]
        exact h.records b
      channels := channels
      frees := frees
      linked := fun b off => (h.linked b off).leaves (leaves b)
      bulk := h.bulk.congr (fun q => by
        by_cases same : q = p
        · rw [same, port, ended.bulk, bulk]
        · rw [(others q same).port.engine]) fun b => by rw [(leaves b).record] }

theorem withoutWaiter_lawful {x : Chan} (h : x.Lawful) (p : Port) : (x.withoutWaiter p).Lawful :=
  h.shrink rfl (fun q on => by
    rw [Chan.withoutWaiter, maskHas_erase, Bool.and_eq_true_iff] at on
    exact on.1) (List.Sublist.refl _)

/-- A take waiter leaves, and its TAKE ends. -/
theorem State.PoolBut.takeWaitEnds (h : s.PoolBut E) (waits : s.TakeWaits p c) {g : Engine → Engine}
    (ended : (s.port p).engine.Ended (g (s.port p).engine)) : ((s.leaveTakeWait c p).modEngine p g).PoolBut E := by
  have control := (h.ports p).control
  obtain ⟨offClaims, only⟩ := control.once c waits
  have chan (d : ChanIx) : ((s.leaveTakeWait c p).modEngine p g).chan d = (s.leaveTakeWait c p).chan d := rfl
  refine h.waitEnds (control.waiting.2 (.inr ⟨c, waits⟩)) ended ?_ (fun q other => ?_) (fun b => ?_) h.claims (fun d => ?_) h.frees
    offClaims fun d still => ?_
  · rw [modEngine_eq_modPort, port_modPort_same]
    rfl
  · refine State.Beyond.trans (t := s.leaveTakeWait c p) (beyond_modChan s (seenBy_of_status rfl ?_)) ?_
    · rw [maskHas_erase, decide_eq_false other, Bool.not_false, Bool.and_true]
    · rw [modEngine_eq_modPort]
      exact beyond_modPort_other other ..
  · refine State.Leaves.trans (t := s.leaveTakeWait c p) (leaves_modChan s Iff.rfl fun _ => rfl) ?_
    rw [modEngine_eq_modPort]
    exact leaves_modPort ..
  · rw [chan, State.leaveTakeWait]
    by_cases same : d = c
    · rw [same, chan_modChan_same]
      exact withoutWaiter_lawful (h.channels c) p
    · rw [chan_modChan_other _ same]
      exact h.channels d
  · rw [State.TakeWaits, chan, State.leaveTakeWait] at still
    by_cases same : d = c
    · rw [same, chan_modChan_same, maskHas_erase, decide_eq_true rfl, Bool.not_true, Bool.and_false] at still
      exact Bool.false_ne_true still
    · rw [chan_modChan_other _ same] at still
      exact same (only d still)

/-- A claim waiter leaves, and its CLAIM ends. -/
theorem State.PoolBut.claimWaitEnds (h : s.PoolBut E) (waits : p ∈ s.claimWait) {g : Engine → Engine}
    (ended : (s.port p).engine.Ended (g (s.port p).engine)) : ((s.setClaimWait (s.claimWait.erase p)).modEngine p g).PoolBut E := by
  have control := (h.ports p).control
  rw [modEngine_eq_modPort]
  refine h.waitEnds (control.waiting.2 (.inl waits)) ended ?_
    (fun q other => State.Beyond.trans (beyond_setClaimWait s (List.mem_erase_of_ne other)) (beyond_modPort_other other ..))
    (fun b => State.Leaves.trans (leaves_setClaimWait s _ b) (leaves_modPort ..)) (h.claims.erase p) h.channels h.frees
    (fun mem => ((List.Nodup.mem_erase_iff h.claims).1 mem).1 rfl) fun c takes => (control.once c takes).1 waits
  rw [port_modPort_same]
  rfl

theorem State.PoolBut.endWait (h : w.state.PoolBut E) (waiting : (w.state.port p).engine.state = .waiting) (e : ResultCode) :
    (w.endWait p e).state.PoolBut E := by
  have control := (h.ports p).control
  unfold Work.endWait Work.complete
  by_cases claims : p ∈ w.state.claimWait
  · have left := leaveWaits_claim fun c => Bool.eq_false_iff.2 fun takes => (control.once c takes).1 claims
    simp only [map_state, left]
    exact h.claimWaitEnds claims (g := fun x => x.completed e res0) (completed_ended ..)
  · obtain ⟨c, takes⟩ := (control.waiting.1 waiting).resolve_left claims
    have left := leaveWaits_take claims takes (control.once c takes).2
    simp only [map_state, left]
    exact h.takeWaitEnds takes (g := fun x => x.completed e res0) (completed_ended ..)

end

end Sys2Proof.Machine
end

section
/-! The pool's laws through a close: its first step, its steps and its last step, and the disposal of entries (R60 to R63). -/

namespace Sys2Proof.Machine

section
variable {s t : State} {w : Work} {p q : Port} {b : BufIx} {c : ChanIx} {E : List BufIx}

/-- An engine that changes beside its state, its request and its mover. -/
theorem State.PoolBut.engineFrame {f : Engine → Engine} (h : s.PoolBut E) (lawful : (f (s.port p).engine).Lawful)
    (state : (f (s.port p).engine).state = (s.port p).engine.state) (request : (f (s.port p).engine).request = (s.port p).engine.request)
    (bulk : (f (s.port p).engine).bulk = (s.port p).engine.bulk) : (s.modEngine p f).PoolBut E := by
  have laws := h.ports p
  have port : (s.modPort p fun x => { x with engine := f x.engine }).port p = { s.port p with engine := f (s.port p).engine } :=
    port_modPort_same ..
  rw [modEngine_eq_modPort]
  refine h.modPort ⟨?_, ?_, ?_⟩ (by rw [bulk])
  · exact State.ControlLawful.frame (s := s)
      { session := by rw [State.sessionState, port]; rfl
        teardown := by rw [port]
        engine := by rw [port]; exact lawful
        state := by rw [port]; exact state
        request := by rw [port]; exact request
        mover := by rw [port, bulk]
        windowA := by rw [port]; exact id
        windowB := by rw [port]; exact id
        roles := fun _ => id
        claims := Iff.rfl
        chans := fun _ => seenBy_refl .. } laws.control
  · exact laws.charge.congr (by rw [port]) (by rw [port]) fun _ => rfl
  · exact laws.rights.mono (by rw [port]) (by rw [port]) (by rw [port, bulk]; exact fun _ => id) (fun _ => id) fun _ => id

/-! ## The first step (R60) -/

theorem closeRefusal_checks (h : s.closeRefusal p = none) (operand : channelOperand (s.operand p 0) = some c) :
    ∃ u, (s.chan c).status = .opened u := by
  unfold State.closeRefusal at h
  simp only [operand] at h
  split at h
  · exact ⟨_, ‹_›⟩
  · exact nomatch h

/-- An OPEN channel without take waiters closes under a port that is open itself. -/
theorem State.PoolBut.closesUnder {u : ChanSetup} {f : Chan → Chan} (h : s.PoolBut E) (op : s.Open p)
    (opened : (s.chan c).status = .opened u) (waiters : (s.chan c).takeWaiters = 0)
    (closes : f (s.chan c) = { status := .closing u p, queue := (s.chan c).queue, takeWaiters := 0 }) : (s.modChan c f).PoolBut E := by
  have lawful := h.channels c
  have setup : (s.chan c).setup = some u := setup_of_opened opened
  have none : (s.chan c).closer = none := by rw [Chan.closer, opened]
  have setup' : (f (s.chan c)).setup = some u := by rw [closes]; rfl
  have closer' : (f (s.chan c)).closer = some p := by rw [closes]; rfl
  refine h.modChan (fun q => ?_) (by rw [closes, waiters]) (by rw [closes])
    (fun _ => by rw [destinations_of_setup setup', destinations_of_setup setup]) ?_
  · by_cases same : q = p
    · exact .inl (same ▸ op)
    · refine .inr ⟨by rw [closes, waiters], fun on => ?_, fun on => ?_, fun on => ?_, fun own => ?_⟩
      · rwa [destinations_of_setup setup', ← destinations_of_setup setup] at on
      · rwa [Chan.unicastTo, setup', ← setup] at on
      · rw [Chan.concerns, setup', closer'] at on
        rw [Chan.concerns, setup]
        exact Bool.or_eq_true_iff.2 ((Bool.or_eq_true_iff.1 on).imp (fun is => absurd (Option.some.inj (eq_of_beq is)).symm same) id)
      · exact nomatch none.symm.trans own
  · refine ⟨fun closed => (nomatch closed.symm.trans setup'), fun _ => by rw [closes], ?_, ?_, ?_, ?_, ?_⟩
    · rw [closes]
      exact BitVec.zero_and
    · rw [setup', ← setup]
      exact lawful.ports
    · rw [setup', ← setup, closes]
      exact lawful.capacity
    · rw [setup', ← setup]
      exact lawful.unicast
    · rw [closes]
      exact lawful.nodup

/-- The take waiters of a channel leave one after the other, and their TAKEs end. -/
def Work.dismiss (w : Work) (c : ChanIx) (l : List Port) : Work :=
  l.foldl (fun w q => (w.map fun s => s.leaveTakeWait c q).complete q .channelClosed res0 true) w

theorem dismiss_cons (w : Work) (c : ChanIx) (q : Port) (l : List Port) :
    w.dismiss c (q :: l) = ((w.map fun s => s.leaveTakeWait c q).complete q .channelClosed res0 true).dismiss c l := rfl

/-- One waiter is dismissed. -/
theorem dismissed_takeWaiters (w : Work) (c d : ChanIx) (q r : Port) :
    maskHas ((((w.map fun s => s.leaveTakeWait c q).complete q .channelClosed res0 true).state.chan d)).takeWaiters r =
      (maskHas (w.state.chan d).takeWaiters r && !(decide (d = c) && decide (r = q))) := by
  show maskHas ((w.state.leaveTakeWait c q).chan d).takeWaiters r = _
  unfold State.leaveTakeWait
  by_cases same : d = c
  · rw [same, chan_modChan_same, maskHas_erase, decide_eq_true rfl, Bool.true_and]
  · rw [chan_modChan_other _ same, decide_eq_false same, Bool.false_and, Bool.not_false, Bool.and_true]

theorem State.PoolBut.dismiss {l : List Port} (h : w.state.PoolBut E) (distinct : l.Nodup) (waits : ∀ q ∈ l, w.state.TakeWaits q c) :
    (w.dismiss c l).state.PoolBut E := by
  induction l generalizing w with
  | nil => exact h
  | cons q l ih =>
    obtain ⟨away, distinct⟩ := List.nodup_cons.1 distinct
    rw [dismiss_cons]
    refine ih (h.takeWaitEnds (waits q List.mem_cons_self) (g := fun e => e.completed .channelClosed res0) (completed_ended ..)) distinct
      fun r mem => ?_
    have other : r ≠ q := fun same => away (same ▸ mem)
    rw [State.TakeWaits, dismissed_takeWaiters, decide_eq_false other, Bool.and_false, Bool.not_false, Bool.and_true]
    exact waits r (List.mem_cons_of_mem _ mem)

theorem dismiss_takeWaiters (l : List Port) (w : Work) (r : Port) :
    maskHas ((w.dismiss c l).state.chan c).takeWaiters r = (maskHas (w.state.chan c).takeWaiters r && !decide (r ∈ l)) := by
  induction l generalizing w with
  | nil => simp [Work.dismiss]
  | cons q l ih =>
    rw [dismiss_cons, ih, dismissed_takeWaiters, decide_eq_true rfl, Bool.true_and, Bool.and_assoc]
    simp

theorem dismiss_status (l : List Port) (w : Work) : ((w.dismiss c l).state.chan c).status = (w.state.chan c).status ∧
    ((w.dismiss c l).state.chan c).queue = (w.state.chan c).queue := by
  induction l generalizing w with
  | nil => exact ⟨rfl, rfl⟩
  | cons q l ih =>
    have step : (((w.map fun s => s.leaveTakeWait c q).complete q .channelClosed res0 true).state.chan c) =
        (w.state.chan c).withoutWaiter q := chan_modChan_same w.state c fun x => x.withoutWaiter q
    rw [dismiss_cons, (ih _).1, (ih _).2, step]
    exact ⟨rfl, rfl⟩

theorem dismiss_port_other {l : List Port} (off : p ∉ l) (w : Work) : (w.dismiss c l).state.port p = w.state.port p := by
  induction l generalizing w with
  | nil => rfl
  | cons q l ih =>
    rw [List.mem_cons, not_or] at off
    rw [dismiss_cons, ih off.2, complete_port_other _ off.1]
    rfl

theorem foldl_complete_congr (l : List Port) {w w' : Work} (same : w.state = w'.state) (e : ResultCode) (r : Vector Word 4)
    (long : Bool) : (l.foldl (fun w q => w.complete q e r long) w).state = (l.foldl (fun w q => w.complete q e r long) w').state := by
  induction l generalizing w w' with
  | nil => exact same
  | cons q l ih => exact ih (congrArg (fun t : State => t.modEngine q fun x => x.completed e r) same)

/-- The first step of a close may dismiss its waiters before it closes the channel. -/
theorem foldl_complete_close {l : List Port} (off : p ∉ l) (w : Work) (f : Chan → Chan) (g : Engine → Engine)
    (absorbs : ∀ x q, f (x.withoutWaiter q) = f x) :
    (l.foldl (fun w q => w.complete q .channelClosed res0 true) (w.map fun s => (s.modChan c f).modEngine p g)).state =
      ((w.dismiss c l).state.modChan c f).modEngine p g := by
  induction l generalizing w with
  | nil => rfl
  | cons q l ih =>
    rw [List.mem_cons, not_or] at off
    rw [dismiss_cons, ← ih off.2, List.foldl_cons]
    refine foldl_complete_congr l ?_ ..
    show ((w.state.modChan c f).modEngine p g).modEngine q (fun e => e.completed .channelClosed res0) =
      (((w.state.leaveTakeWait c q).modEngine q fun e => e.completed .channelClosed res0).modChan c f).modEngine p g
    have chan : (w.state.leaveTakeWait c q).modChan c f = w.state.modChan c f := by
      rw [State.leaveTakeWait, modChan_modChan]
      exact modChan_congr _ _ (absorbs ..)
    rw [show ∀ e, ((w.state.leaveTakeWait c q).modEngine q e).modChan c f = ((w.state.leaveTakeWait c q).modChan c f).modEngine q e from
      fun _ => rfl, chan]
    simp only [modEngine_eq_modPort]
    exact modPort_comm _ off.1 ..

theorem State.PoolBut.closeChannel (h : w.state.PoolBut E) (req : w.state.Requested p .closeChannel) :
    (w.closeChannel p).state.PoolBut E := by
  unfold Work.closeChannel
  split
  · exact h.refuse req.runs _
  · exact h
  · rename_i c accepted operand
    obtain ⟨u, opened⟩ := closeRefusal_checks accepted operand
    have waiters (q : Port) : q ∈ maskPorts (w.state.chan c).takeWaiters ↔ w.state.TakeWaits q c := mem_maskPorts ..
    have off : p ∉ maskPorts (w.state.chan c).takeWaiters := fun mem =>
      req.runs.offTakes (h.ports p).control c ((waiters p).1 mem)
    have dismissed := h.dismiss (maskPorts_nodup _) fun q mem => (waiters q).1 mem
    have port := dismiss_port_other (c := c) off w
    have gone : ((w.dismiss c (maskPorts (w.state.chan c).takeWaiters)).state.chan c).takeWaiters = 0 :=
      (mask_eq_zero_iff _).2 fun q => by
        rw [dismiss_takeWaiters]
        simp
    have status := (dismiss_status (c := c) (maskPorts (w.state.chan c).takeWaiters) w).1.trans opened
    have op : (w.dismiss c (maskPorts (w.state.chan c).takeWaiters)).state.Open p := by
      rw [State.Open, State.sessionState, port]
      exact req.runs.op
    have closed := dismissed.closesUnder (f := fun x => { x.closeUnder p with takeWaiters := 0 }) op status gone (by
      rw [Chan.closeUnder, setup_of_opened status])
    simp only
    rw [foldl_complete_close off w (fun x => { x.closeUnder p with takeWaiters := 0 }) _ fun x q => by
      unfold Chan.closeUnder
      rw [show (x.withoutWaiter q).setup = x.setup from rfl]
      cases x.setup <;> rfl]
    refine closed.engineFrame (f := fun e => { e with close := some { channel := c, returned := 0, discarded := 0 } }) ?_ rfl rfl rfl
    have engine : (((w.dismiss c (maskPorts (w.state.chan c).takeWaiters)).state.modChan c fun x =>
      { x.closeUnder p with takeWaiters := 0 }).port p).engine = (w.state.port p).engine := congrArg PortState.engine port
    rw [engine]
    exact (Engine.Moves.closes _ _ req.ready).lawful (h.ports p).control.engine

/-! ## The last step (R62) -/

theorem reset_lawful : Chan.reset.Lawful where
  closed _ := ⟨rfl, rfl⟩
  closing := nofun
  waiters := BitVec.zero_and
  ports := nofun
  capacity := nofun
  unicast := nofun
  nodup := List.nodup_nil

/-- A CLOSING channel with an empty queue becomes CLOSED. -/
theorem State.PoolBut.closeChan (h : s.PoolBut E) (closing : (s.chan c).closer.isSome = true) (empty : (s.chan c).queue = []) :
    (s.closeChan c).PoolBut E := by
  have waiters := (h.channels c).closing closing
  rw [State.closeChan, setChan_eq_modChan]
  exact h.modChan (fun q => .inr (seenBy_of_nothing (by rw [waiters]; rfl) (maskHas_none q) nofun)) waiters.symm empty.symm
    (fun some => absurd empty some) reset_lawful

theorem closingUnder_isSome (h : (s.chan c).closer = some p) : (s.chan c).closer.isSome = true := by rw [h]; rfl

theorem State.PoolBut.lastCloseStep (h : s.PoolBut E) (closing : (s.chan c).closer = some p) (empty : (s.chan c).queue = [])
    (q : Port) : (s.lastCloseStep c q).PoolBut E := (h.closeChan (closingUnder_isSome closing) empty).placeAll ..

/-! ## Disposal of the head entry (R61) -/

/-- The record of an entry that has left its queue with nothing pending. -/
def BufRec.left (r : BufRec) : BufRec := { r with pending := 0, channel := none }

theorem dropEntry_eq (s : State) (c : ChanIx) (b : BufIx) : s.dropEntry c b =
    (s.modChan c fun x => { x with queue := x.queue.erase b }).modBuf b BufRec.left := by
  rw [State.dropEntry, State.leaveQueue, modBuf_modBuf]
  rfl

/-- An entry leaves its queue; its buffer's place is then to be set right. -/
theorem State.PoolBut.dropEntry (h : s.PoolBut E) (linked : s.Linked b) (mem : b ∈ (s.chan c).queue) :
    (s.dropEntry c b).PoolBut (b :: E) ∧ (s.dropEntry c b).Loose b := by
  have named := (linked.stands c).1 mem
  have pends := linked.channel.1 (by rw [named]; rfl)
  have loose : b ∉ s.freeList := fun free => pends (roles_of_unused ((state_free_iff _).1 (linked.free.1 free)).1).2.2
  have lawful := h.channels c
  have buf : (s.dropEntry c b).buf b = (s.buf b).left := by
    rw [dropEntry_eq]
    exact buf_modBuf_same ..
  have beyond (q : Port) : s.Beyond (s.dropEntry c b) q := by
    rw [dropEntry_eq]
    exact (beyond_modChan s (seenBy_of_status rfl rfl)).trans (beyond_modBuf _ ⟨rfl, rfl⟩)
  have chanSame : (s.dropEntry c b).chan c = { s.chan c with queue := (s.chan c).queue.erase b } := by
    rw [dropEntry_eq, chan_modBuf, chan_modChan_same]
  have chanOther {d : ChanIx} (other : d ≠ c) : (s.dropEntry c b).chan d = s.chan d := by
    rw [dropEntry_eq, chan_modBuf, chan_modChan_other s other]
  refine ⟨h.touch (p := 0) (fun q _ => beyond q) ((h.ports 0).beyond (beyond 0)) h.claims ?_ ?_ (fun d => ?_) h.frees
    (fun d other => ?_) (sameMovers_refl s), ⟨?_, loose⟩⟩
  · rw [buf]
    exact ⟨fun held => ⟨((h.records b).held held).1, rfl⟩, (h.records b).readers, fun _ _ => maskHas_none _, (h.records b).length⟩
  · rw [buf]
    rfl
  · by_cases same : d = c
    · rw [same, chanSame]
      exact lawful.shrink rfl (fun _ => id) List.erase_sublist
    · rw [chanOther same]
      exact h.channels d
  · rw [dropEntry_eq]
    exact (leaves_modChan s (List.mem_erase_of_ne other) fun _ => rfl).trans (leaves_modBuf other _ _)
  · refine ⟨by rw [buf]; exact ⟨nofun, fun some => absurd rfl some⟩, fun d => ?_, fun d on => ?_⟩
    · rw [buf]
      refine ⟨fun still => ?_, nofun⟩
      by_cases same : d = c
      · rw [same, chanSame] at still
        exact absurd rfl ((List.Nodup.mem_erase_iff lawful.nodup).1 still).1
      · rw [chanOther same] at still
        exact absurd (Option.some.inj (((linked.stands d).1 still).symm.trans named)) same
    · rw [buf] at on
      exact nomatch on

theorem State.PoolBut.tellOrigin (h : s.PoolBut E) (k : RecordKind) (c : ChanIx) (b : BufIx) : (s.tellOrigin k c b).PoolBut E := by
  rcases tellOrigin_cases s k c b with same | ⟨o, r, placed⟩
  · rw [same]
    exact h
  · rw [placed]
    exact h.place o r

theorem State.Loose.leaves {d : BufIx} (h : s.Loose d) (leaves : s.Leaves t d) : t.Loose d :=
  ⟨h.queued.leaves leaves, fun mem => h.free (leaves.free.1 mem)⟩

theorem leaves_tellOrigin (s : State) (k : RecordKind) (c : ChanIx) (b d : BufIx) : s.Leaves (s.tellOrigin k c b) d := by
  rcases tellOrigin_cases s k c b with same | ⟨o, r, placed⟩
  · rw [same]
    exact leaves_refl s d
  · rw [placed]
    exact leaves_place s o r d

theorem beyond_tellOrigin (s : State) (k : RecordKind) (c : ChanIx) (b : BufIx) (p : Port) : s.Beyond (s.tellOrigin k c b) p := by
  rcases tellOrigin_cases s k c b with same | ⟨o, r, placed⟩
  · rw [same]
    exact beyond_refl s p
  · rw [placed]
    exact beyond_place s o r p

/-- A buffer without use returns to an attached origin below its quota (R61). -/
theorem State.PoolBut.returnTo (h : s.PoolBut (b :: E)) (loose : s.Loose b) (unused : (s.buf b).unused = true)
    (attached : s.attached p = true) (below : s.belowQuota p = true) : (s.returnTo p b).PoolBut E := by
  have laws := h.ports p
  have held : (s.buf b).HeldNow { s.buf b with
      holder := some { port := p, lease := leaseOf (s.port p).session.holdLease }, origin := none } p :=
    { holder := ⟨_, rfl⟩, length := (h.records b).length }
  refine h.holds (f := fun r => { r with
    holder := some { port := p, lease := leaseOf (s.port p).session.holdLease }, origin := none })
    (g := fun x => { x with charge := x.charge + 1 }) (l := s.claimWait) loose.queued loose.free unused held h.claims
    (fun _ _ => Iff.rfl) below ⟨(s.port p).engine, rfl, rfl⟩ ?_
  have op := open_of_attached laws.control attached
  have port : (s.returnTo p b).port p = { s.port p with charge := (s.port p).charge + 1 } := port_modPort_same ..
  show (s.returnTo p b).ControlLawful p
  have session : (s.returnTo p b).sessionState p = s.sessionState p := by rw [State.sessionState, port]; rfl
  refine controlLawful_of_open ?_ ?_ ?_ ?_ ?_ ?_ ?_ laws.control.once
  · rw [State.Open, session, port]
    exact op
  · rw [port]
    exact laws.control.engine
  · rw [session, port]
    exact laws.control.session.admitted
  · rw [session, port]
    exact laws.control.session.running
  · rw [session, port]
    exact laws.control.teardown.runs
  · rw [port]
    exact laws.control.teardown.start
  · rw [port]
    exact laws.control.waiting

/-- What a disposal is, and what it says of the buffer. -/
theorem disposalOf_spec (s : State) (b : BufIx) : match s.disposalOf b with
    | .kept => (s.buf b).readers ≠ []
    | .returned => (s.buf b).readers = [] ∧ ∀ o ∈ (s.buf b).origin, s.attached o = true ∧ s.belowQuota o = true
    | .discarded => True := by
  cases readers : (s.buf b).readers with
  | cons x l =>
    have is : s.disposalOf b = .kept := by rw [State.disposalOf, readers]; rfl
    rw [is]
    exact nofun
  | nil =>
    cases origin : (s.buf b).origin with
    | none =>
      have is : s.disposalOf b = .discarded := by rw [State.disposalOf, readers, origin]; rfl
      rw [is]
      trivial
    | some o =>
      by_cases can : (s.attached o && s.belowQuota o) = true
      · have is : s.disposalOf b = .returned := by
          rw [State.disposalOf, readers, origin]
          exact if_pos can
        rw [is]
        rw [Bool.and_eq_true] at can
        exact ⟨rfl, fun o' mem => Option.some.inj mem ▸ can⟩
      · have is : s.disposalOf b = .discarded := by
          rw [State.disposalOf, readers, origin]
          exact if_neg can
        rw [is]
        trivial

/-- A buffer that has left its queue without a reader has no use: it was not held while it stood there. -/
theorem unused_of_left {r : BufRec} (lawful : r.RolesLawful) (pends : r.pending ≠ 0) (readers : r.readers = []) : r.left.unused = true := by
  have holder : r.holder = none := by
    cases holder : r.holder with
    | none => rfl
    | some x => exact absurd (lawful.held (by rw [holder]; rfl)).2 pends
  simp [BufRec.left, BufRec.unused, holder, readers]

theorem State.PoolBut.disposeEntry (h : w.state.PoolBut E) (linked : w.state.Linked b) (mem : b ∈ (w.state.chan c).queue) :
    (w.disposeEntry c b).state.PoolBut E := by
  obtain ⟨dropped, loose⟩ := h.dropEntry linked mem
  have pends := linked.channel.1 (by rw [(linked.stands c).1 mem]; rfl)
  have buf : (w.state.dropEntry c b).buf b = (w.state.buf b).left := by
    rw [dropEntry_eq]
    exact buf_modBuf_same ..
  have spec := disposalOf_spec (w.state.dropEntry c b) b
  unfold Work.disposeEntry
  simp only [map_state]
  split
  · rename_i kept
    rw [kept] at spec
    refine dropped.close ⟨loose.queued, fun free => absurd free loose.free, fun free => ?_⟩
    exact absurd (roles_of_unused ((state_free_iff _).1 free).1).2.1 spec
  · rename_i returned
    rw [returned] at spec
    obtain ⟨readers, can⟩ := spec
    have unused : ((w.state.dropEntry c b).buf b).unused = true := by
      rw [buf] at readers ⊢
      exact unused_of_left (h.records b) pends readers
    rw [map_state, map_state]
    split
    · rename_i none
      exact absurd none (by
        have some := returned
        unfold State.disposalOf at some
        rw [none] at some
        split at some
        · exact nomatch some
        · exact nomatch some)
    · rename_i o origin
      obtain ⟨attached, below⟩ := can o origin
      have leaves := leaves_tellOrigin (w.state.dropEntry c b) .returned c b b
      have beyond := (beyond_tellOrigin (w.state.dropEntry c b) .returned c b o).port
      refine (dropped.tellOrigin .returned c b).returnTo (loose.leaves leaves) (by rw [leaves.record]; exact unused) ?_ ?_
      · rw [State.attached, State.sessionState, beyond.session]
        exact attached
      · rw [State.belowQuota, beyond.charge, beyond.quota]
        exact below
  · exact State.PoolBut.lastUse (w := (w.map fun s => s.dropEntry c b).map fun s => s.tellOrigin .discarded c b)
      (dropped.tellOrigin .discarded c b) (loose.leaves (leaves_tellOrigin ..))

/-! ## The steps of a close (R61 to R63) -/

theorem State.PoolBut.closeStep (h : w.state.PoolBut []) (runs : w.state.Runs p) : (w.closeStep p).state.PoolBut [] := by
  unfold Work.closeStep
  split
  · exact h
  · rename_i g close
    split
    · exact h.complete runs ..
    · rename_i under
      have closer : (w.state.chan g.channel).closer = some p := closingUnder_iff.1 (by simpa using under)
      split
      · rename_i empty
        refine State.PoolBut.complete (w := w.map fun s => s.lastCloseStep g.channel p) (h.lastCloseStep closer empty p) ?_ ..
        have closed : (w.state.closeChan g.channel).Runs p := ⟨runs.op, runs.state, runs.bulk⟩
        exact closed.placeAll _ _
      · rename_i b rest queue
        have mem : b ∈ (w.state.chan g.channel).queue := by rw [queue]; exact List.mem_cons_self
        have disposed := h.disposeEntry (h.linked b List.not_mem_nil) mem
        have engine := disposeEntry_engine (runs.offClaims (h.ports p).control) g.channel b
        have lawful := (disposed.ports p).control.engine
        refine disposed.engineFrame (f := fun e => { e with close := some _ }) ?_ rfl rfl rfl
        exact ⟨lawful.idle, lawful.waiting, lawful.timer, lawful.bulk, lawful.claimed, fun _ =>
          lawful.close (by rw [engine, close]; rfl)⟩

end

end Sys2Proof.Machine
end

section
/-! The pool's laws through POST: the record in transit, its deliveries, the displacement, and the queue it joins (R48 to R55). -/

namespace Sys2Proof.Machine

section
variable {s t : State} {w : Work} {p q : Port} {b d : BufIx} {c : ChanIx}

/-! ## A buffer on its way into a queue -/

/-- A posted buffer that stands in no queue yet, with ports of its channel pending or readers already begun. -/
structure State.Posting (s : State) (b : BufIx) (c : ChanIx) : Prop where
  laws : s.PoolBut [b]
  named : (s.buf b).channel = some c
  within : (s.buf b).pending &&& ~~~(s.chan c).destinations = 0
  free : b ∉ s.freeList
  off : ∀ d, b ∉ (s.chan d).queue
  going : (s.buf b).readers = [] → (s.buf b).pending ≠ 0

theorem State.Posting.leaves (h : s.Posting b c) (laws : t.PoolBut [b]) (leaves : s.Leaves t b)
    (destinations : (t.chan c).destinations = (s.chan c).destinations) : t.Posting b c where
  laws := laws
  named := by rw [leaves.record]; exact h.named
  within := by rw [leaves.record, destinations]; exact h.within
  free mem := h.free (leaves.free.1 mem)
  off d mem := h.off d ((leaves.queues d).1 mem)
  going := by rw [leaves.record]; exact h.going

/-! ## The holding ends (R48, R49) -/

theorem postRefusal_checks (h : s.postRefusal p = none) (operand : channelOperand (s.operand p 1) = some c) : ∃ u,
    s.checkHandle (s.operand p 0) = none ∧ (s.buf (handleIx (s.operand p 0))).heldBy p = true ∧
      (s.buf (handleIx (s.operand p 0))).bulkCount = 0 ∧ (s.chan c).status = .opened u ∧ (s.operand p 2).toNat ≤ 512 ∧
      (u.policy = .refuse → s.queueFull c = true → s.wouldRemain c = false) := by
  unfold State.postRefusal at h
  simp only [operand] at h
  split at h
  · exact nomatch h
  · rename_i good
    split at h
    · exact nomatch h
    · rename_i held
      split at h
      · exact nomatch h
      · rename_i idle
        split at h
        · rename_i u opened
          split at h
          · exact nomatch h
          · split at h
            · exact nomatch h
            · rename_i short
              split at h
              · exact nomatch h
              · rename_i room
                refine ⟨u, good, by simpa using held, not_not.1 idle, opened, not_lt.1 short, fun refuse full => ?_⟩
                rw [refuse, full] at room
                simpa using room
        · exact nomatch h

theorem postRecord_posting (h : s.PoolBut []) (runs : s.Runs p) (held : (s.buf b).heldBy p = true) {u : ChanSetup}
    (opened : (s.chan c).status = .opened u) (short : (s.operand p 2).toNat ≤ 512) : (s.postRecord p b c).Posting b c := by
  obtain ⟨none, others, record⟩ := unheld_lost (h.records b) held
  have holder : (s.buf b).holder.isSome = true := by
    obtain ⟨x, holder, _⟩ : ∃ x, (s.buf b).holder = some x ∧ x.port = p := by
      simpa [BufRec.heldBy, Option.any_eq_true] using held
    rw [holder]
    rfl
  have readers := ((h.records b).held holder).1
  have role : (s.buf b).roleOf p = true := by rw [BufRec.roleOf, held, Bool.true_or]
  have linked := h.linked b List.not_mem_nil
  have setup := setup_of_opened opened
  have buf : ((s.postRecord p b c).buf b) = { s.buf b with
      length := (s.operand p 2).toNat, tag := s.operand p 3, origin := some p, holder := Option.none
      pending := (s.chan c).destinations, channel := some c } := by
    rw [postRecord_eq, buf_modPort, buf_modBuf_same]
  have chan (d : ChanIx) : (s.postRecord p b c).chan d = s.chan d := by rw [postRecord_eq]; rfl
  refine ⟨?_, by rw [buf], by rw [buf, chan]; exact (mask_subset_iff _ _).2 fun _ => id, ?_, fun d => ?_, fun _ => ?_⟩
  · rw [postRecord_eq]
    refine h.loses role none others ⟨nofun, ?_, ?_, short⟩ rfl (givesUp_drops ..) fun m hm _ _ => no_mover runs hm
    · exact (h.records b).readers
    · show ∀ e ∈ (s.buf b).readers, _
      rw [readers]
      exact nofun
  · rw [postRecord_eq]
    exact fun mem => role_not_free role (linked.free.1 mem)
  · rw [chan]
    intro mem
    have pends := linked.channel.1 (by rw [(linked.stands d).1 mem]; rfl)
    exact pends ((h.records b).held holder).2
  · rw [buf]
    show (s.chan c).destinations ≠ 0
    rw [destinations_of_setup setup]
    exact ((h.channels c).ports u setup).1

theorem postRecord_runs (runs : s.Runs p) (b : BufIx) (c : ChanIx) : (s.postRecord p b c).Runs p := by
  rw [postRecord_eq]
  exact runs.givesUp _

/-! ## Direct deliveries (R50) -/

theorem deliver_state (below : w.state.belowQuota q = true) : (w.deliver q c b).state =
    ((w.state.modBuf b fun r => r.readBegun q (w.state.port q).session.readLease).modChan c fun x => x.withoutWaiter q).modPort q
      fun x => { x with charge := x.charge + 1, engine := x.engine.completed .ok ((w.state.buf b).takeWords b) } := by
  rw [deliver_below below]
  show ((w.state.addReader q b).leaveTakeWait c q).modEngine q (fun e => e.completed .ok ((w.state.buf b).takeWords b)) = _
  rw [addReader_eq, State.leaveTakeWait, modEngine_eq_modPort, modPort_modChan_comm, modPort_modPort]
  rfl

theorem State.Posting.deliver (h : w.state.Posting b c) (waits : w.state.TakeWaits q c) (pends : maskHas (w.state.buf b).pending q = true) :
    (w.deliver q c b).state.Posting b c := by
  by_cases below : w.state.belowQuota q = true
  · have control := (h.laws.ports q).control
    have waiting := control.waiting.2 (.inr ⟨c, waits⟩)
    obtain ⟨offClaims, only⟩ := control.once c waits
    have erased (r : Port) : maskHas ((w.state.chan c).withoutWaiter q).takeWaiters r =
        (maskHas (w.state.chan c).takeWaiters r && !decide (r = q)) := maskHas_erase ..
    rw [deliver_state below]
    have buf : ((((w.state.modBuf b fun r => r.readBegun q (w.state.port q).session.readLease).modChan c fun x =>
        x.withoutWaiter q).modPort q fun x => { x with
          charge := x.charge + 1
          engine := x.engine.completed .ok ((w.state.buf b).takeWords b) }).buf b) =
        (w.state.buf b).readBegun q (w.state.port q).session.readLease :=
      buf_modBuf_same w.state b fun r => r.readBegun q (w.state.port q).session.readLease
    have chanSame : ((w.state.modBuf b fun r => r.readBegun q (w.state.port q).session.readLease).modChan c fun x =>
        x.withoutWaiter q).chan c = (w.state.chan c).withoutWaiter q := chan_modChan_same (w.state.modBuf b _) c _
    have chanOther {d : ChanIx} (other : d ≠ c) :
        ((w.state.modBuf b fun r => r.readBegun q (w.state.port q).session.readLease).modChan c fun x =>
          x.withoutWaiter q).chan d = w.state.chan d := chan_modChan_other (w.state.modBuf b _) other _
    refine ⟨h.laws.reads pends { readers := ⟨_, rfl⟩ }
      ⟨rfl, fun r other => (erased r).trans (by rw [decide_eq_false other]; exact Bool.and_true _), fun _ _ => Iff.rfl,
        withoutWaiter_lawful (h.laws.channels c) q⟩ below ⟨_, rfl, (bulk_of_waiting control waiting).symm⟩ ?_, ?_, ?_, h.free,
      fun d => ?_, ?_⟩
    · refine control.ended (open_of_waiting control waiting) ?_ ?_ ?_ offClaims fun d still => ?_
      · rw [State.sessionState, port_modPort_same]
        rfl
      · rw [port_modPort_same]
        rfl
      · rw [port_modPort_same]
        exact completed_ended ..
      · rw [State.TakeWaits, chan_modPort] at still
        by_cases same : d = c
        · rw [same, chanSame, erased, decide_eq_true rfl, Bool.not_true, Bool.and_false] at still
          exact Bool.false_ne_true still
        · rw [chanOther same] at still
          exact same (only d still)
    · rw [buf]
      exact h.named
    · rw [buf, chan_modPort, chanSame, mask_subset_iff]
      refine fun r on => (mask_subset_iff _ _).1 h.within r ?_
      have more : maskHas (maskErase (w.state.buf b).pending q) r = true := on
      rw [maskHas_erase, Bool.and_eq_true_iff] at more
      exact more.1
    · rw [chan_modPort]
      by_cases same : d = c
      · rw [same, chanSame]
        exact h.off c
      · rw [chanOther same]
        exact h.off d
    · rw [buf]
      exact fun none => absurd none (by simp [BufRec.readBegun])
  · rw [deliver_full (Bool.eq_false_iff.2 below)]
    exact h

theorem deliver_keeps (other : p ≠ q) (w : Work) (b : BufIx) (c : ChanIx) :
    (w.deliver q c b).state.port p = w.state.port p ∧
      maskHas ((w.deliver q c b).state.chan c).takeWaiters p = maskHas (w.state.chan c).takeWaiters p ∧
      maskHas ((w.deliver q c b).state.buf b).pending p = maskHas (w.state.buf b).pending p := by
  by_cases below : w.state.belowQuota q = true
  · rw [deliver_state below]
    refine ⟨?_, ?_, ?_⟩
    · rw [port_modPort_other _ other, port_modChan, port_modBuf]
    · rw [chan_modPort, chan_modChan_same]
      show maskHas (maskErase (w.state.chan c).takeWaiters q) p = _
      rw [maskHas_erase, decide_eq_false other, Bool.not_false, Bool.and_true]
    · rw [buf_modPort, buf_modChan, buf_modBuf_same]
      show maskHas (maskErase (w.state.buf b).pending q) p = _
      rw [maskHas_erase, decide_eq_false other, Bool.not_false, Bool.and_true]
  · rw [deliver_full (Bool.eq_false_iff.2 below)]
    exact ⟨rfl, rfl, rfl⟩

theorem State.Posting.deliveries {l : List Port} (h : w.state.Posting b c) (distinct : l.Nodup)
    (waits : ∀ q ∈ l, w.state.TakeWaits q c ∧ maskHas (w.state.buf b).pending q = true) :
    (l.foldl (fun w q => w.deliver q c b) w).state.Posting b c := by
  induction l generalizing w with
  | nil => exact h
  | cons q l ih =>
    obtain ⟨away, distinct⟩ := List.nodup_cons.1 distinct
    obtain ⟨takes, pends⟩ := waits q List.mem_cons_self
    refine ih (h.deliver takes pends) distinct fun r mem => ?_
    obtain ⟨_, stays, pending⟩ := deliver_keeps (p := r) (q := q) (fun same => away (same ▸ mem)) w b c
    rw [State.TakeWaits, stays, pending]
    exact waits r (List.mem_cons_of_mem _ mem)

theorem foldl_deliver_port {l : List Port} (off : p ∉ l) (w : Work) :
    (l.foldl (fun w q => w.deliver q c b) w).state.port p = w.state.port p := by
  induction l generalizing w with
  | nil => rfl
  | cons q l ih =>
    rw [List.mem_cons, not_or] at off
    rw [List.foldl_cons, ih off.2, (deliver_keeps off.1 w b c).1]

/-! ## The displacement (R53) -/

theorem tellOrigin_chan (s : State) (k : RecordKind) (c : ChanIx) (b : BufIx) (e : ChanIx) : (s.tellOrigin k c b).chan e = s.chan e := by
  rcases tellOrigin_cases s k c b with same | ⟨o, r, placed⟩
  · rw [same]
  · rw [placed, place_chan]

theorem leaves_serveClaim (w : Work) (q : Port) (other : b ≠ d) : w.state.Leaves (w.serveClaim q d).state b where
  record := serveClaim_buf_other other q
  free := by rw [serveClaim_freeList]
  queues c := by rw [serveClaim_chan]
  lists c _ := by rw [serveClaim_chan]

theorem leaves_lastUse (w : Work) (other : b ≠ d) : w.state.Leaves (w.lastUse d).state b := by
  have freed : w.state.Leaves (w.map fun s => s.modBuf d BufRec.freed).state b := leaves_modBuf other ..
  unfold Work.lastUse Work.enterFree
  split
  · simp only
    split
    · exact freed.trans (leaves_serveClaim _ _ other)
    · exact freed.trans (leaves_setFreeList _ (by simp [other]))
  · exact leaves_refl ..

theorem leaves_dropEntry (s : State) (c : ChanIx) (other : b ≠ d) : s.Leaves (s.dropEntry c d) b := by
  rw [dropEntry_eq]
  exact (leaves_modChan s (List.mem_erase_of_ne other) fun _ => rfl).trans (leaves_modBuf other ..)

theorem dropEntry_chan (s : State) (c : ChanIx) (d : BufIx) :
    (s.dropEntry c d).chan c = { s.chan c with queue := (s.chan c).queue.erase d } := by
  rw [dropEntry_eq, chan_modBuf, chan_modChan_same]

/-- A full queue under DISPLACE_OLDEST loses its head, and the posted buffer stays on its way. -/
theorem State.Posting.displaces (h : w.state.Posting b c) (mem : d ∈ (w.state.chan c).queue) {w' : Work}
    (result : w' = (w.map fun s => s.dropEntry c d) ∧ ((w.state.dropEntry c d).buf d).readers ≠ [] ∨
      w' = ((w.map fun s => s.dropEntry c d).map fun s => s.tellOrigin .displaced c d).lastUse d) :
    w'.state.Posting b c ∧ w.state.Leaves w'.state b ∧
      w'.state.chan c = { w.state.chan c with queue := (w.state.chan c).queue.erase d } := by
  have other : b ≠ d := fun same => h.off c (same ▸ mem)
  have linked := h.laws.linked d fun one => other (List.mem_singleton.1 one).symm
  obtain ⟨dropped, loose⟩ := h.laws.dropEntry linked mem
  have leaves := leaves_dropEntry w.state c other
  have chan := dropEntry_chan w.state c d
  rcases result with ⟨rfl, readers⟩ | rfl
  · refine ⟨h.leaves (dropped.close ⟨loose.queued, fun free => absurd free loose.free, fun free => ?_⟩) leaves ?_, leaves, chan⟩
    · exact absurd (roles_of_unused ((state_free_iff _).1 free).1).2.1 readers
    · rw [map_state, chan]
      rfl
  · have told := leaves_tellOrigin (w.state.dropEntry c d) .displaced c d
    have chan' : ((((w.map fun s => s.dropEntry c d).map fun s => s.tellOrigin .displaced c d).lastUse d).state.chan c) =
        { w.state.chan c with queue := (w.state.chan c).queue.erase d } := by
      rw [lastUse_chan, map_state, map_state, tellOrigin_chan, chan]
    have leaves' := (leaves.trans (told b)).trans
      (leaves_lastUse ((w.map fun s => s.dropEntry c d).map fun s => s.tellOrigin .displaced c d) other)
    refine ⟨h.leaves (State.PoolBut.lastUse (w := (w.map fun s => s.dropEntry c d).map fun s => s.tellOrigin .displaced c d)
      (dropped.tellOrigin ..) (loose.leaves (told d))) leaves' ?_, leaves', chan'⟩
    rw [chan']
    rfl

theorem State.Posting.displace {u : ChanSetup} (h : w.state.Posting b c) (setup : (w.state.chan c).setup = some u)
    (room : u.policy = .displaceOldest ∨ (w.state.chan c).queue.length < u.capacity) :
    (w.displace c).state.Posting b c ∧ w.state.Leaves (w.displace c).state b ∧ ((w.displace c).state.chan c).setup = some u ∧
      ((w.displace c).state.chan c).queue.length < u.capacity := by
  obtain ⟨least, _, most⟩ := (h.laws.channels c).capacity u setup
  have full : w.state.queueFull c = decide (u.capacity ≤ (w.state.chan c).queue.length) := by
    rw [State.queueFull, setup]
    rfl
  unfold Work.displace
  rw [setup, Option.any_some, full]
  split
  · rename_i displaced
    simp only [Bool.and_eq_true, decide_eq_true_eq] at displaced
    split
    · rename_i empty
      rw [empty, List.length_nil] at displaced
      omega
    · rename_i d rest queue
      have mem : d ∈ (w.state.chan c).queue := by rw [queue]; exact List.mem_cons_self
      have shorter : ((w.state.chan c).queue.erase d).length < u.capacity := by
        rw [List.length_erase_of_mem mem]
        omega
      simp only
      split
      · rename_i readers
        obtain ⟨posting, leaves, chan⟩ := h.displaces mem (.inl ⟨rfl, by simpa using readers⟩)
        rw [chan]
        exact ⟨posting, leaves, setup, shorter⟩
      · obtain ⟨posting, leaves, chan⟩ := h.displaces mem (.inr rfl)
        rw [chan]
        exact ⟨posting, leaves, setup, shorter⟩
  · rename_i stays
    refine ⟨h, leaves_refl .., setup, room.elim (fun policy => ?_) id⟩
    simp only [policy, beq_self_eq_true, Bool.true_and, decide_eq_true_eq, not_le] at stays
    exact stays

/-! ## The queue (R51) -/

/-- A posted buffer with nothing pending stands in no queue. -/
theorem State.Posting.settled (h : s.Posting b c) (none : (s.buf b).pending = 0) :
    (s.modBuf b fun r => { r with channel := Option.none }).PoolBut [] := by
  have readers : (s.buf b).readers ≠ [] := fun empty => h.going empty none
  have buf : (s.modBuf b fun r => { r with channel := Option.none }).buf b = { s.buf b with channel := Option.none } := buf_modBuf_same ..
  have laws := h.laws.modBuf (f := fun r => { r with channel := Option.none }) (fun _ => ⟨rfl, rfl⟩) (b := b)
    ⟨(h.laws.records b).held, (h.laws.records b).readers, (h.laws.records b).pending, (h.laws.records b).length⟩ rfl
  refine (laws.weaken (F := [b]) fun d mem => by simpa using mem).close ⟨⟨?_, fun d => ?_, ?_⟩, fun mem => absurd mem h.free, ?_⟩
  · rw [buf]
    exact ⟨nofun, fun some => absurd none some⟩
  · rw [buf]
    exact ⟨fun mem => absurd mem (h.off d), nofun⟩
  · rw [buf]
    exact nofun
  · rw [buf]
    exact fun free => absurd (roles_of_unused ((state_free_iff _).1 free).1).2.1 readers

/-- A posted buffer with ports pending joins a queue that has room. -/
theorem State.Posting.joins {u : ChanSetup} {queue : List BufIx} (h : s.Posting b c) (pends : (s.buf b).pending ≠ 0)
    (setup : (s.chan c).setup = some u) (room : (s.chan c).queue.length < u.capacity)
    (perm : queue.Perm (b :: (s.chan c).queue)) : (s.modChan c fun x => { x with queue := queue }).PoolBut [] := by
  have lawful := h.laws.channels c
  have mem (d : BufIx) : d ∈ queue ↔ d = b ∨ d ∈ (s.chan c).queue := by rw [perm.mem_iff, List.mem_cons]
  have chanSame : (s.modChan c fun x => { x with queue := queue }).chan c = { s.chan c with queue := queue } := chan_modChan_same ..
  have laws : (s.modChan c fun x => { x with queue := queue }).PoolBut [b] :=
    { ports := fun q => (h.laws.ports q).beyond (beyond_modChan s (seenBy_of_status rfl rfl))
      claims := h.laws.claims
      records := h.laws.records
      channels := fun d => by
        by_cases same : d = c
        · rw [same, chanSame]
          refine ⟨fun closed => (nomatch closed.symm.trans setup), lawful.closing, lawful.waiters, lawful.ports, fun v hv => ?_,
            lawful.unicast, perm.nodup_iff.2 (List.nodup_cons.2 ⟨h.off c, lawful.nodup⟩)⟩
          obtain ⟨least, most, _⟩ := lawful.capacity v hv
          refine ⟨least, most, ?_⟩
          obtain rfl := Option.some.inj (setup.symm.trans hv)
          show queue.length ≤ u.capacity
          rw [perm.length_eq, List.length_cons]
          exact room
        · rw [chan_modChan_other _ same]
          exact h.laws.channels d
      frees := h.laws.frees
      linked := fun d off => (h.laws.linked d off).leaves (leaves_modChan s ((mem d).trans
        (or_iff_right fun same => off (List.mem_singleton.2 same))) fun _ => rfl)
      bulk := h.laws.bulk }
  refine laws.close ⟨⟨⟨fun _ => pends, fun _ => ?_⟩, fun d => ?_, fun d on => ?_⟩, fun free => absurd free h.free, fun free => ?_⟩
  · exact congrArg Option.isSome h.named
  · show _ ↔ (s.buf b).channel = _
    rw [h.named]
    by_cases same : d = c
    · rw [same, chanSame]
      exact ⟨fun _ => rfl, fun _ => (mem b).2 (.inl rfl)⟩
    · rw [chan_modChan_other _ same]
      exact ⟨fun stands => absurd stands (h.off d), fun on => absurd (Option.some.inj on).symm same⟩
  · obtain rfl := Option.some.inj (h.named.symm.trans on)
    rw [chanSame]
    exact h.within
  · exact absurd (roles_of_unused ((state_free_iff _).1 free).1).2.2 pends

theorem State.Posting.joinQueue {u : ChanSetup} (h : s.Posting b c) (pends : (s.buf b).pending ≠ 0) (setup : (s.chan c).setup = some u)
    (room : (s.chan c).queue.length < u.capacity) (head : Bool) : (s.joinQueue c b head).PoolBut [] := by
  have shape : s.modChan c (fun x => { x with queue := if head then b :: x.queue else x.queue ++ [b] }) =
      s.modChan c fun x => { x with queue := if head then b :: (s.chan c).queue else (s.chan c).queue ++ [b] } := modChan_congr s c rfl
  unfold State.joinQueue
  rw [shape]
  refine State.PoolBut.placeAll (h.joins pends setup room ?_) ..
  split
  · exact List.Perm.refl _
  · exact List.perm_append_singleton b _

/-! ## POST -/

theorem leftPending_of_room (h : s.wouldRemain c = false) : s.leftPending c = 0 := by
  refine (mask_eq_zero_iff _).2 fun q => ?_
  rw [State.leftPending, maskHas_and, maskHas_not, maskHas_maskOf]
  by_cases lists : maskHas (s.chan c).destinations q = true
  · have takes := List.any_eq_false.1 h q ((mem_maskPorts ..).2 lists)
    simp only [Bool.not_eq_true', Bool.not_eq_false, Bool.and_eq_true] at takes
    have taker : q ∈ s.takersAt c := (mem_takersAt s c q).2 ⟨⟨takes.1, lists⟩, takes.2⟩
    rw [decide_eq_true taker, Bool.not_true, Bool.and_false]
  · rw [Bool.eq_false_iff.2 lists, Bool.false_and]

theorem deliver_setup (w : Work) (q : Port) (b : BufIx) (c : ChanIx) : ((w.deliver q c b).state.chan c).setup = (w.state.chan c).setup ∧
    ((w.deliver q c b).state.chan c).queue = (w.state.chan c).queue := by
  by_cases below : w.state.belowQuota q = true
  · rw [deliver_state below, chan_modPort, chan_modChan_same]
    exact ⟨rfl, rfl⟩
  · rw [deliver_full (Bool.eq_false_iff.2 below)]
    exact ⟨rfl, rfl⟩

theorem foldl_deliver_setup (l : List Port) (w : Work) :
    ((l.foldl (fun w q => w.deliver q c b) w).state.chan c).setup = (w.state.chan c).setup ∧
      ((l.foldl (fun w q => w.deliver q c b) w).state.chan c).queue = (w.state.chan c).queue := by
  induction l generalizing w with
  | nil => exact ⟨rfl, rfl⟩
  | cons q l ih =>
    obtain ⟨setup, queue⟩ := deliver_setup w q b c
    rw [List.foldl_cons, (ih _).1, (ih _).2]
    exact ⟨setup, queue⟩

theorem State.Posting.finish {u : ChanSetup} (h : w.state.Posting b c) (setup : (w.state.chan c).setup = some u)
    (room : (w.state.buf b).pending ≠ 0 → u.policy = .displaceOldest ∨ (w.state.chan c).queue.length < u.capacity) (head : Bool) :
    (w.postFinish c b head).state.PoolBut [] := by
  unfold Work.postFinish
  split
  · rename_i none
    exact h.settled none
  · rename_i pends
    obtain ⟨posting, leaves, setup', room'⟩ := h.displace setup (room pends)
    exact posting.joinQueue (by rw [leaves.record]; exact pends) setup' room' head

theorem postFinish_runs (runs : w.state.Runs p) (control : w.state.ControlLawful p) (head : Bool) :
    (w.postFinish c b head).state.Runs p := by
  have dropped (d : BufIx) : (w.state.dropEntry c d).Runs p := by
    rw [dropEntry_eq]
    exact ⟨runs.op, runs.state, runs.bulk⟩
  have displaced : (w.displace c).state.Runs p := by
    unfold Work.displace
    split
    · split
      · exact runs
      · rename_i d _ _
        simp only
        split
        · exact dropped d
        · have told := (dropped d).alike (beyond_tellOrigin (w.state.dropEntry c d) .displaced c d p).port
          refine told.alike ?_
          rw [lastUse_port_other]
          · exact alike_refl _
          · rw [map_state, tellOrigin_claimWait]
            exact runs.offClaims control
    · exact runs
  unfold Work.postFinish
  split
  · exact ⟨runs.op, runs.state, runs.bulk⟩
  · have joined : ((w.displace c).state.modChan c fun x => { x with queue := if head then b :: x.queue else x.queue ++ [b] }).Runs p :=
      ⟨displaced.op, displaced.state, displaced.bulk⟩
    exact joined.placeAll _ _

theorem State.PoolBut.post (h : s.PoolBut []) (runs : s.Runs p) : ((Work.start s).post p).state.PoolBut [] := by
  unfold Work.post
  split
  · exact h.refuse (w := Work.start s) runs _
  · exact h
  · rename_i c accepted operand
    obtain ⟨u, good, held, idle, opened, short, refuses⟩ := postRefusal_checks (s := s) accepted operand
    simp only [start_state]
    have posting := postRecord_posting (b := handleIx (s.operand p 0)) h runs held opened short
    have runs' := postRecord_runs runs (handleIx (s.operand p 0)) c
    have chan (d : ChanIx) : (s.postRecord p (handleIx (s.operand p 0)) c).chan d = s.chan d := by rw [postRecord_eq]; rfl
    have waits (q : Port) (mem : q ∈ maskPorts (((s.postRecord p (handleIx (s.operand p 0)) c).chan c).takeWaiters &&&
        ((s.postRecord p (handleIx (s.operand p 0)) c).chan c).destinations)) :
        (s.postRecord p (handleIx (s.operand p 0)) c).TakeWaits q c ∧
          maskHas ((s.postRecord p (handleIx (s.operand p 0)) c).buf (handleIx (s.operand p 0))).pending q = true := by
      rw [mem_maskPorts, maskHas_and, Bool.and_eq_true] at mem
      refine ⟨mem.1, ?_⟩
      rw [postRecord_eq, buf_modPort, buf_modBuf_same, ← chan c]
      exact mem.2
    have off : p ∉ maskPorts (((s.postRecord p (handleIx (s.operand p 0)) c).chan c).takeWaiters &&&
        ((s.postRecord p (handleIx (s.operand p 0)) c).chan c).destinations) := fun mem =>
      runs'.offTakes (posting.laws.ports p).control c (waits p mem).1
    have delivered : ((Work.start (s.postRecord p (handleIx (s.operand p 0)) c)).deliverAll c (handleIx (s.operand p 0))).state.Posting
        (handleIx (s.operand p 0)) c :=
      State.Posting.deliveries (w := Work.start (s.postRecord p (handleIx (s.operand p 0)) c)) posting (maskPorts_nodup _) waits
    have port : ((Work.start (s.postRecord p (handleIx (s.operand p 0)) c)).deliverAll c (handleIx (s.operand p 0))).state.port p =
        (s.postRecord p (handleIx (s.operand p 0)) c).port p := foldl_deliver_port off _
    have runs'' := runs'.alike (by rw [port]; exact alike_refl _ :
      ((s.postRecord p (handleIx (s.operand p 0)) c).port p).Alike
        (((Work.start (s.postRecord p (handleIx (s.operand p 0)) c)).deliverAll c (handleIx (s.operand p 0))).state.port p))
    obtain ⟨setup, queue⟩ := foldl_deliver_setup (b := handleIx (s.operand p 0)) (c := c)
      (maskPorts (((s.postRecord p (handleIx (s.operand p 0)) c).chan c).takeWaiters &&&
        ((s.postRecord p (handleIx (s.operand p 0)) c).chan c).destinations)) (Work.start (s.postRecord p (handleIx (s.operand p 0)) c))
    have setup' := setup.trans ((congrArg Chan.setup (chan c)).trans (setup_of_opened opened))
    have pending : (((Work.start (s.postRecord p (handleIx (s.operand p 0)) c)).deliverAll c
        (handleIx (s.operand p 0))).state.buf (handleIx (s.operand p 0))).pending = s.leftPending c := by
      rw [deliverAll_postRecord good (Bool.eq_false_iff.2 (runs.offTakes (h.ports p).control c)), post_pending]
    refine (delivered.finish (u := u) setup' (fun pends => ?_) _).complete (postFinish_runs runs'' (delivered.laws.ports p).control _) ..
    rw [pending] at pends
    have length : (((Work.start (s.postRecord p (handleIx (s.operand p 0)) c)).deliverAll c (handleIx (s.operand p 0))).state.chan
        c).queue.length = (s.chan c).queue.length := congrArg List.length (queue.trans (congrArg Chan.queue (chan c)))
    cases policy : u.policy with
    | displaceOldest => exact .inl rfl
    | refuse =>
      refine .inr ?_
      rw [length]
      by_contra full
      refine pends (leftPending_of_room (refuses policy ?_))
      rw [State.queueFull, setup_of_opened opened]
      exact decide_eq_true (not_lt.1 full)

end

end Sys2Proof.Machine
end

section
/-! The pool's laws through bulk operations: their start steps, and the end step with the buffers that it frees (R13, R106 to R109, R115). -/

namespace Sys2Proof.Machine

section
variable {s t : State} {w : Work} {p q : Port} {b d : BufIx} {m : Bulk} {code : ReqCode} {E F : List BufIx}

/-! ## Bulk counts and movers -/

/-- Two records differ in their bulk counts alone. -/
def BufRec.Recounted (r r' : BufRec) : Prop := ∃ n, r' = { r with bulkCount := n }

theorem BufRec.Recounted.sameRoles {r r' : BufRec} (h : r.Recounted r') (q : Port) : r.SameRoles q r' := by
  obtain ⟨n, rfl⟩ := h
  exact ⟨rfl, rfl⟩

theorem BufRec.Recounted.rolesLawful {r r' : BufRec} (h : r.Recounted r') (lawful : r.RolesLawful) : r'.RolesLawful := by
  obtain ⟨n, rfl⟩ := h
  exact ⟨lawful.held, lawful.readers, lawful.pending, lawful.length⟩

theorem State.Queued.recounted (h : s.Queued b) (counted : (s.buf b).Recounted (t.buf b)) (channels : t.channels = s.channels) :
    t.Queued b := by
  obtain ⟨n, record⟩ := counted
  exact h.congr (by rw [record]) (by rw [record]) (fun c => by rw [State.chan, State.chan, channels])
    fun c _ => by rw [State.chan, State.chan, channels]

/-- Bulk counts move with the mover of one port. -/
theorem State.PoolBut.recount (h : s.PoolBut E) (counted : ∀ b, (s.buf b).Recounted (t.buf b)) (own : t.PortLawful p)
    (others : ∀ q, q ≠ p → (s.port q).Alike (t.port q)) (freeList : t.freeList = s.freeList) (claimWait : t.claimWait = s.claimWait)
    (channels : t.channels = s.channels)
    (states : ∀ b, b ∉ F → b ∉ E ∧ ((t.buf b).state = .free ↔ (s.buf b).state = .free)) (bulk : t.BulkLawful) : t.PoolBut F := by
  have chan (c : ChanIx) : t.chan c = s.chan c := by rw [State.chan, State.chan, channels]
  exact
    { ports := fun q => by
        by_cases same : q = p
        · exact same ▸ own
        · exact (h.ports q).beyond ⟨others q same, fun b => (counted b).sameRoles q, by rw [claimWait], fun c => by
            rw [chan]
            exact seenBy_refl ..⟩
      claims := claimWait ▸ h.claims
      records := fun b => (counted b).rolesLawful (h.records b)
      channels := fun c => by
        rw [chan]
        exact h.channels c
      frees := freeList ▸ h.frees
      linked := fun b off => by
        obtain ⟨off, state⟩ := states b off
        have linked := h.linked b off
        exact ⟨linked.toQueued.recounted (counted b) channels, by rw [freeList, state, linked.free]⟩
      bulk := bulk }

theorem touches_nodup (m : Bulk) : m.touches.Nodup := by
  unfold Bulk.touches
  split
  · split
    · exact List.nodup_singleton _
    · rename_i other
      simpa using Ne.symm other
  · exact List.nodup_singleton _

/-- A mover of a port more touches a buffer. -/
theorem bulkUsers_gain (before : (s.port p).engine.bulk = none) (after : (t.port p).engine.bulk = some m) (touches : b ∈ m.touches)
    (others : ∀ q, q ≠ p → (t.port q).engine.bulk = (s.port q).engine.bulk) :
    (t.bulkUsers b).length = (s.bulkUsers b).length + 1 := by
  refine length_filter_gain (List.nodup_finRange 4) (List.mem_finRange p) ?_ ?_ fun q other => by rw [others q other]
  · rw [before]
    rfl
  · rw [after, Option.any_some]
    simpa using touches

theorem bulkUsers_apart (before : (s.port p).engine.bulk = none) (after : (t.port p).engine.bulk = some m) (off : b ∉ m.touches)
    (others : ∀ q, q ≠ p → (t.port q).engine.bulk = (s.port q).engine.bulk) : t.bulkUsers b = s.bulkUsers b := by
  refine List.filter_congr fun q _ => ?_
  by_cases same : q = p
  · rw [same, before, after, Option.any_some, Option.any_none]
    simpa using off
  · rw [others q same]

/-- Bulk counts that follow a mover stay what they count. -/
theorem bulkLawful_starts (h : s.BulkLawful) (before : (s.port p).engine.bulk = none) (after : (t.port p).engine.bulk = some m)
    (others : ∀ q, q ≠ p → (t.port q).engine.bulk = (s.port q).engine.bulk)
    (counts : ∀ b, (t.buf b).bulkCount = (s.buf b).bulkCount + if b ∈ m.touches then 1 else 0) : t.BulkLawful := fun b => by
  rw [counts, h b]
  split
  · rename_i touches
    exact (bulkUsers_gain before after touches others).symm
  · rename_i off
    rw [bulkUsers_apart before after off others, Nat.add_zero]

theorem bulkLawful_ends (h : s.BulkLawful) (before : (s.port p).engine.bulk = some m) (after : (t.port p).engine.bulk = none)
    (others : ∀ q, q ≠ p → (t.port q).engine.bulk = (s.port q).engine.bulk)
    (counts : ∀ b, (t.buf b).bulkCount = (s.buf b).bulkCount - if b ∈ m.touches then 1 else 0) : t.BulkLawful := fun b => by
  have others' (q : Port) (other : q ≠ p) := (others q other).symm
  rw [counts, h b]
  split
  · rename_i touches
    rw [bulkUsers_gain after before touches others', Nat.add_sub_cancel]
  · rename_i off
    rw [bulkUsers_apart after before off others', Nat.sub_zero]

/-- A mover that touches a buffer is counted there. -/
theorem counted_of_touches (h : s.BulkLawful) (bulk : (s.port p).engine.bulk = some m) (touches : b ∈ m.touches) :
    (s.buf b).bulkCount ≠ 0 := by
  rw [h b]
  refine List.ne_nil_iff_length_pos.1 (List.ne_nil_of_mem (a := p) (List.mem_filter.2 ⟨List.mem_finRange p, ?_⟩)) |>.ne'
  rw [bulk, Option.any_some]
  simpa using touches

/-! ## Start steps (R106 to R109) -/

theorem startBulk_frame (s : State) (p : Port) (m : Bulk) :
    (s.startBulk p m).port p = { s.port p with engine := { (s.port p).engine with bulk := some m } } ∧
      (∀ q, q ≠ p → (s.startBulk p m).port q = s.port q) ∧
        ∀ b, (s.startBulk p m).buf b = { s.buf b with bulkCount := (s.buf b).bulkCount + if b ∈ m.touches then 1 else 0 } := by
  unfold State.startBulk
  rw [modEngine_eq_modPort]
  refine ⟨?_, fun q other => ?_, fun b => ?_⟩
  · rw [port_modPort_same, foldl_modBuf_port]
  · rw [port_modPort_other _ other, foldl_modBuf_port]
  · rw [buf_modPort, foldl_modBuf_buf _ b (touches_nodup m)]
    split <;> rfl

theorem startBulk_rest (s : State) (p : Port) (m : Bulk) : (s.startBulk p m).freeList = s.freeList ∧
    (s.startBulk p m).claimWait = s.claimWait ∧ (s.startBulk p m).channels = s.channels := by
  unfold State.startBulk
  rw [modEngine_eq_modPort, foldl_modBuf_rest]
  exact ⟨rfl, rfl, rfl⟩

/-- What a start step finds: its port holds the destination and has a role in the source. -/
structure State.MayStart (s : State) (p : Port) (m : Bulk) : Prop where
  active : s.sessionState p = .active
  engine : ({ (s.port p).engine with bulk := some m } : Engine).Lawful
  holds : (s.buf m.destination.buffer).heldBy p = true
  reads : ∀ r ∈ m.source, (s.buf r.buffer).roleOf p = true

theorem mem_touches : b ∈ m.touches ↔ b = m.destination.buffer ∨ ∃ r ∈ m.source, b = r.buffer := by
  unfold Bulk.touches
  cases m.source with
  | none => simp
  | some r =>
    simp only [Option.mem_def, Option.some.injEq, exists_eq_left']
    split
    · rename_i same
      simp [same]
    · simp

theorem State.PoolBut.startBulk (h : s.PoolBut []) (runs : s.Runs p) (may : s.MayStart p m) : (s.startBulk p m).PoolBut [] := by
  obtain ⟨port, others, bufs⟩ := startBulk_frame s p m
  obtain ⟨freeList, claimWait, channels⟩ := startBulk_rest s p m
  have laws := h.ports p
  have counted (b : BufIx) : (s.buf b).Recounted ((s.startBulk p m).buf b) := ⟨_, bufs b⟩
  have session : (s.startBulk p m).sessionState p = s.sessionState p := by rw [State.sessionState, port]; rfl
  have takes (c : ChanIx) : (s.startBulk p m).TakeWaits p c ↔ s.TakeWaits p c := by
    rw [State.TakeWaits, State.TakeWaits, State.chan, State.chan, channels]
  have control : (s.startBulk p m).ControlLawful p := by
    refine controlLawful_of_open ?_ ?_ ?_ ?_ ?_ ?_ ?_ ?_
    · rw [State.Open, session, port]
      exact runs.op
    · rw [port]
      exact may.engine
    · rw [session, port]
      exact laws.control.session.admitted
    · rw [session]
      exact fun _ => .inl may.active
    · rw [session, port]
      exact laws.control.teardown.runs
    · rw [port]
      exact laws.control.teardown.start
    · simp only [takes, claimWait, port]
      exact laws.control.waiting
    · simp only [takes, claimWait]
      exact laws.control.once
  have rights : (s.startBulk p m).RightsLawful p :=
    { windows := fun w v mapped => by
        rw [port] at mapped
        rw [((counted _).sameRoles p).roleOf, ((counted _).sameRoles p).1]
        exact laws.rights.windows w v (by cases w <;> exact mapped)
      mover := fun m' hm _ _ => by
        rw [port] at hm
        obtain rfl := Option.some.inj hm
        rw [((counted _).sameRoles p).1]
        exact ⟨may.holds, fun r hr => by rw [((counted _).sameRoles p).roleOf]; exact may.reads r hr⟩ }
  refine h.recount counted ⟨control, laws.charge.congr (by rw [port]) (by rw [port]) fun b => ((counted b).sameRoles p).roleOf, rights⟩
    (fun q other => by rw [others q other]; exact alike_refl _) freeList claimWait channels (fun b _ => ⟨List.not_mem_nil, ?_⟩)
    (bulkLawful_starts h.bulk runs.bulk (by rw [port]) (fun q other => by rw [others q other]) fun b => by rw [bufs])
  by_cases touches : b ∈ m.touches
  · have role : (s.buf b).roleOf p = true := by
      rcases mem_touches.1 touches with rfl | ⟨r, hr, rfl⟩
      · rw [BufRec.roleOf, may.holds, Bool.true_or]
      · exact may.reads r hr
    have role' : ((s.startBulk p m).buf b).roleOf p = true := by rw [((counted b).sameRoles p).roleOf]; exact role
    exact ⟨fun free => absurd free (role_not_free role'), fun free => absurd free (role_not_free role)⟩
  · rw [bufs, if_neg touches]
    rfl

theorem fillRefusal_checks (h : s.fillRefusal p = none) : (s.buf (handleIx (s.operand p 0))).heldBy p = true := by
  unfold State.fillRefusal at h
  simp only at h
  split at h
  · exact nomatch h
  · split at h
    · exact nomatch h
    · rename_i held
      simpa using held

theorem State.PoolBut.fill (h : w.state.PoolBut []) (req : w.state.Requested p .fill) : (w.fill p).state.PoolBut [] := by
  unfold Work.fill
  split
  · exact h.refuse req.runs _
  · rename_i accepted
    exact h.startBulk req.runs
      { active := active_of_admits req.admitted nofun rfl
        engine := (Engine.Moves.starts _ _ req.runs.state (.inl ⟨_, .inl rfl, req.ready⟩)).lawful (h.ports p).control.engine
        holds := fillRefusal_checks accepted
        reads := nofun }

theorem copyRefusal_checks (h : s.copyRefusal p = none) :
    (s.buf (handleIx (s.operand p 0))).roleOf p = true ∧ (s.buf (handleIx (s.operand p 2))).heldBy p = true := by
  unfold State.copyRefusal at h
  simp only at h
  split at h
  · exact nomatch h
  · split at h
    · exact nomatch h
    · rename_i reads
      split at h
      · exact nomatch h
      · rename_i held
        exact ⟨by simpa using reads, by simpa using held⟩

theorem State.PoolBut.copy (h : w.state.PoolBut []) (req : w.state.Requested p .copy) : (w.copy p).state.PoolBut [] := by
  unfold Work.copy
  split
  · exact h.refuse req.runs _
  · rename_i accepted
    obtain ⟨reads, holds⟩ := copyRefusal_checks accepted
    exact h.startBulk req.runs
      { active := active_of_admits req.admitted nofun rfl
        engine := (Engine.Moves.starts _ _ req.runs.state (.inl ⟨_, .inr rfl, req.ready⟩)).lawful (h.ports p).control.engine
        holds := holds
        reads := fun r hr => Option.some.inj hr ▸ reads }

/-- A zero fill starts in an ACTIVE session: its CLAIM is admitted by no other (R25). -/
theorem State.PoolBut.zeroFillStart (h : w.state.PoolBut []) (runs : w.state.Runs p) (up : w.state.sessionState p ≠ .resetting) :
    (w.zeroFillStart p).state.PoolBut [] := by
  have control := (h.ports p).control
  unfold Work.zeroFillStart
  split
  · exact h
  · rename_i h' claimed
    have claims : (w.state.port p).engine.claimed.isSome = true := by rw [claimed]; rfl
    obtain ⟨_, r, hr, code, _⟩ := control.engine.claimed claims
    split
    · rename_i stands
      exact h.startBulk runs
        { active := active_of_admits (control.session.admitted up r hr) (by rw [code]; exact nofun) (by rw [code]; rfl)
          engine := (Engine.Moves.starts _ _ runs.state (.inr claims)).lawful control.engine
          holds := ((claimedStands_iff ..).1 stands).1
          reads := nofun }
    · exact h.complete runs ..

/-! ## Buffers that enter FREE one after the other -/

theorem leaves_enterFree (w : Work) (other : b ≠ d) : w.state.Leaves (w.enterFree d).state b := by
  have freed : w.state.Leaves (w.map fun s => s.modBuf d BufRec.freed).state b := leaves_modBuf other ..
  unfold Work.enterFree
  simp only
  split
  · exact freed.trans (leaves_serveClaim _ _ other)
  · exact freed.trans (leaves_setFreeList _ (by simp [other]))

/-- A buffer that is due to enter FREE. -/
structure State.Due (s : State) (b : BufIx) : Prop where
  loose : s.Loose b
  unused : (s.buf b).unused = true
  count : (s.buf b).bulkCount = 0

theorem State.Due.leaves (h : s.Due b) (leaves : s.Leaves t b) : t.Due b where
  loose := h.loose.leaves leaves
  unused := by rw [leaves.record]; exact h.unused
  count := by rw [leaves.record]; exact h.count

theorem State.PoolBut.enterFrees {l : List BufIx} (h : w.state.PoolBut l) (distinct : l.Nodup) (due : ∀ b ∈ l, w.state.Due b) :
    (l.foldl Work.enterFree w).state.PoolBut [] ∧ ∀ p, w.state.Runs p → (l.foldl Work.enterFree w).state.Runs p := by
  induction l generalizing w with
  | nil => exact ⟨h, fun _ => id⟩
  | cons b l ih =>
    obtain ⟨away, distinct⟩ := List.nodup_cons.1 distinct
    have first := due b List.mem_cons_self
    obtain ⟨laws, runs⟩ := ih (h.enterFree first.loose first.unused first.count) distinct fun d mem =>
      (due d (List.mem_cons_of_mem _ mem)).leaves (leaves_enterFree w fun same => away (same ▸ mem))
    exact ⟨laws, fun p before => runs p (enterFree_runs (h.ports p).control before b)⟩

/-! ## The end step (R115, R117, R143) -/

/-- The laws of a port whose mover is gone, with no end step owed any more. -/
theorem State.PortLawful.moverGone {o : Bool} (h : s.PortLawful p)
    (port : t.port p = { s.port p with
      engine := { (s.port p).engine with bulk := none }, teardown := { (s.port p).teardown with endOwed := o } })
    (owed : (s.port p).teardown.phase.afterFence = true → o = false) (counted : ∀ b, (s.buf b).Recounted (t.buf b))
    (claimWait : t.claimWait = s.claimWait) (channels : t.channels = s.channels) : t.PortLawful p := by
  have chan (c : ChanIx) : t.chan c = s.chan c := by rw [State.chan, State.chan, channels]
  have roles (b : BufIx) : (t.buf b).roleOf p = (s.buf b).roleOf p := ((counted b).sameRoles p).roleOf
  have session : t.sessionState p = s.sessionState p := by rw [State.sessionState, port]; rfl
  have before := h.control.teardown
  refine ⟨⟨?_, ⟨?_, ?_, ?_, ?_, ?_⟩, ⟨?_, ?_, ?_, ?_, ?_, ?_, ?_, ?_, ?_, ?_, ?_, ?_⟩, ?_, ?_⟩, ?_, ?_⟩
  · rw [port]
    exact (Engine.Moves.ended _).lawful h.control.engine
  · rw [session, port]
    exact h.control.session.admitted
  · rw [session, port]
    exact fun busy => h.control.session.running (.inl (busy.resolve_right nofun))
  · rw [session, port]
    exact h.control.session.unmapped
  · simp only [session, roles]
    exact h.control.session.noRole
  · simp only [session, chan]
    exact h.control.session.noChannel
  · rw [session, port]
    exact before.runs
  · rw [port]
    exact before.start
  · rw [port]
    exact before.fenced
  · rw [port]
    exact before.unmapped
  · rw [port]
    exact fun after => ⟨fun on => absurd ((owed after).symm.trans on) Bool.false_ne_true, nofun⟩
  · simp only [port, chan]
    exact before.unicast
  · simp only [port, roles]
    exact before.rolesBehind
  · simp only [port, roles]
    exact before.noRole
  · simp only [port, chan]
    exact before.channelsBehind
  · simp only [port, chan]
    exact before.inHand
  · simp only [port, chan]
    exact before.found
  · simp only [port, chan]
    exact before.noChannel
  · simp only [State.TakeWaits, port, chan, claimWait]
    exact h.control.waiting
  · simp only [State.TakeWaits, chan, claimWait]
    exact h.control.once
  · exact h.charge.congr (by rw [port]) (by rw [port]) roles
  · exact h.rights.mono (by rw [port]) (by rw [port]) (by rw [port]; exact nofun)
      (fun b => by rw [((counted b).sameRoles p).1]; exact id) fun b => by rw [roles]; exact id

theorem mem_drained : b ∈ s.drained m ↔ b ∈ m.touches ∧ (s.buf b).state = .draining ∧ (s.buf b).bulkCount = 1 := by
  have last : b ∈ s.lastCounts m ↔ b ∈ m.touches ∧ (s.buf b).state = .draining ∧ (s.buf b).bulkCount = 1 := by
    simp [State.lastCounts]
  rcases drained_eq s m with order | order
  · rw [order, last]
  · rw [order, List.mem_reverse, last]

theorem drained_nodup (s : State) (m : Bulk) : (s.drained m).Nodup := by
  have last : (s.lastCounts m).Nodup := (touches_nodup m).filter _
  rcases drained_eq s m with order | order
  · exact order ▸ last
  · exact order ▸ List.nodup_reverse.2 last

theorem unused_of_draining {r : BufRec} (h : r.state = .draining) : r.unused = true := by
  unfold BufRec.state at h
  unfold BufRec.unused
  split at h
  · exact nomatch h
  · split at h
    · exact nomatch h
    · split at h
      · exact nomatch h
      · simp_all

theorem draining_of_unused {r : BufRec} (unused : r.unused = true) (count : r.bulkCount ≠ 0) : r.state = .draining := by
  obtain ⟨holder, readers, pending⟩ := roles_of_unused unused
  simp [BufRec.state, holder, readers, pending, count]

/-- A mover ends: its counts are taken back, and the buffers that drained with it are due to enter FREE. -/
theorem State.PoolBut.moverEnds {o : Bool} (h : s.PoolBut []) (bulk : (s.port p).engine.bulk = some m)
    (port : t.port p = { s.port p with
      engine := { (s.port p).engine with bulk := none }, teardown := { (s.port p).teardown with endOwed := o } })
    (owed : (s.port p).teardown.phase.afterFence = true → o = false) (others : ∀ q, q ≠ p → t.port q = s.port q)
    (bufs : ∀ b, t.buf b = { s.buf b with bulkCount := (s.buf b).bulkCount - if b ∈ m.touches then 1 else 0 })
    (freeList : t.freeList = s.freeList) (claimWait : t.claimWait = s.claimWait) (channels : t.channels = s.channels) :
    t.PoolBut (s.drained m) ∧ ∀ b ∈ s.drained m, t.Due b := by
  have counted (b : BufIx) : (s.buf b).Recounted (t.buf b) := ⟨_, bufs b⟩
  have unused (b : BufIx) : (t.buf b).unused = (s.buf b).unused := by rw [bufs]; rfl
  refine ⟨h.recount counted ((h.ports p).moverGone port owed counted claimWait channels)
    (fun q other => by rw [others q other]; exact alike_refl _) freeList claimWait channels (fun b off => ⟨List.not_mem_nil, ?_⟩)
    (bulkLawful_ends h.bulk bulk (by rw [port]) (fun q other => by rw [others q other]) fun b => by rw [bufs]), fun b mem => ?_⟩
  · by_cases touches : b ∈ m.touches
    · have users := counted_of_touches h.bulk bulk touches
      have count : (t.buf b).bulkCount = (s.buf b).bulkCount - 1 := by rw [bufs, if_pos touches]
      rw [state_free_iff, state_free_iff, unused, count]
      refine and_congr_right fun none => ⟨fun last => ?_, fun free => absurd free users⟩
      exact absurd (mem_drained.2 ⟨touches, draining_of_unused none users, by omega⟩) off
    · rw [bufs, if_neg touches]
      rfl
  · obtain ⟨touches, draining, one⟩ := mem_drained.1 mem
    have linked := h.linked b List.not_mem_nil
    refine ⟨⟨linked.toQueued.recounted (counted b) channels, fun free => ?_⟩, by rw [unused, unused_of_draining draining], ?_⟩
    · rw [freeList, linked.free, draining] at free
      exact nomatch free
    · rw [bufs, if_pos touches, one]

/-- The state in which the buffers of an end step enter FREE. -/
def State.bulkEnded (s : State) (p : Port) (m : Bulk) : State :=
  ((m.touches.foldl (fun t b => t.modBuf b fun r => { r with bulkCount := r.bulkCount - 1 }) s).setFreeDraws
    (if (s.drained m).length = 2 then s.freeDraws + 1 else s.freeDraws)).modEngine p fun e => { e with bulk := none }

theorem endBulk_eq (w : Work) (p : Port) (m : Bulk) :
    w.endBulk p m = (w.state.drained m).foldl Work.enterFree (w.map fun s => s.bulkEnded p m) := by
  unfold Work.endBulk State.bulkEnded
  simp only [Work.map, foldl_modBuf_freeDraws]

theorem bulkEnded_frame (s : State) (p : Port) (m : Bulk) :
    (s.bulkEnded p m).port p = { s.port p with engine := { (s.port p).engine with bulk := none } } ∧
      (∀ q, q ≠ p → (s.bulkEnded p m).port q = s.port q) ∧
        ∀ b, (s.bulkEnded p m).buf b = { s.buf b with bulkCount := (s.buf b).bulkCount - if b ∈ m.touches then 1 else 0 } := by
  unfold State.bulkEnded
  rw [modEngine_eq_modPort]
  refine ⟨?_, fun q other => ?_, fun b => ?_⟩
  · rw [port_modPort_same, port_setFreeDraws, foldl_modBuf_port]
  · rw [port_modPort_other _ other, port_setFreeDraws, foldl_modBuf_port]
  · rw [buf_modPort, buf_setFreeDraws, foldl_modBuf_buf _ b (touches_nodup m)]
    split <;> rfl

theorem bulkEnded_rest (s : State) (p : Port) (m : Bulk) : (s.bulkEnded p m).freeList = s.freeList ∧
    (s.bulkEnded p m).claimWait = s.claimWait ∧ (s.bulkEnded p m).channels = s.channels := by
  unfold State.bulkEnded
  rw [modEngine_eq_modPort, foldl_modBuf_rest]
  exact ⟨rfl, rfl, rfl⟩

/-- The end step of an engine whose port is not RESETTING. -/
theorem State.PoolBut.endStepEngine (h : w.state.PoolBut []) (up : w.state.sessionState p ≠ .resetting) :
    (w.endStepEngine p).state.PoolBut [] := by
  have laws := h.ports p
  unfold Work.endStepEngine
  split
  · exact h
  · rename_i m bulk
    have moves : (w.state.port p).engine.bulk.isSome = true := by rw [bulk]; rfl
    have active := (laws.control.session.running (.inr moves)).resolve_right up
    have idle : (w.state.port p).teardown.phase = .idle := laws.control.teardown.runs.2 up
    obtain ⟨port, others, bufs⟩ := bulkEnded_frame w.state p m
    obtain ⟨freeList, claimWait, channels⟩ := bulkEnded_rest w.state p m
    obtain ⟨ended, due⟩ := h.moverEnds (o := (w.state.port p).teardown.endOwed) bulk port (by rw [idle]; exact nofun) others bufs freeList
      claimWait channels
    have runs : (w.state.bulkEnded p m).Runs p := by
      constructor
      · rw [State.Open, State.sessionState, port]
        exact open_of_not_resetting laws.control (by rw [active]; exact nofun) up
      · rw [port]
        exact (laws.control.engine.bulk moves).1
      · rw [port]
    obtain ⟨freed, stays⟩ := State.PoolBut.enterFrees (w := w.map fun s => s.bulkEnded p m) ended (drained_nodup ..) due
    rw [endBulk_eq]
    exact freed.complete (stays p runs) ..

/-- Two port updates that commute on each port commute. -/
theorem modPort_commutes (s : State) (p q : Port) {f g : PortState → PortState} (same : ∀ x, f (g x) = g (f x)) :
    (s.modPort q g).modPort p f = (s.modPort p f).modPort q g := by
  by_cases here : q = p
  · subst here
    rw [modPort_modPort, modPort_modPort, funext same]
  · exact modPort_comm s here g f

theorem poolApart_modTeardown (p : Port) (g : Teardown → Teardown) : PoolApart fun s => s.modTeardown p g where
  comm s q f := modPort_commutes s p q fun _ => rfl
  engine s q := by rw [State.modTeardown, port_modPort]; split <;> rfl
  config s q := by rw [State.modTeardown, port_modPort]; split <;> rfl
  modBuf _ _ _ := rfl
  setFreeList _ _ := rfl
  setClaimWait _ _ := rfl
  raiseCharge s q := modPort_commutes s p q fun _ => rfl
  buf _ _ := rfl
  freeList _ := rfl
  claimWait _ := rfl
  session s q := by rw [State.modTeardown, port_modPort]; split <;> rfl
  belowQuota s q := by rw [State.belowQuota, State.belowQuota, State.modTeardown, port_modPort]; split <;> rfl

theorem foldl_enterFree_map {f : State → State} (hf : PoolApart f) (l : List BufIx) (w : Work) :
    (l.foldl Work.enterFree w).map f = l.foldl Work.enterFree (w.map f) := by
  induction l generalizing w with
  | nil => rfl
  | cons b l ih => rw [List.foldl_cons, ih, enterFree_map hf, List.foldl_cons]

/-- The end step that a Teardown Unit owes. -/
theorem State.PoolBut.endStepTeardown (h : w.state.PoolBut []) : (w.endStepTeardown p).state.PoolBut [] := by
  have laws := h.ports p
  unfold Work.endStepTeardown
  split
  · exact h
  · rename_i m bulk
    obtain ⟨port, others, bufs⟩ := bulkEnded_frame w.state p m
    obtain ⟨freeList, claimWait, channels⟩ := bulkEnded_rest w.state p m
    obtain ⟨ended, due⟩ := h.moverEnds (t := (w.state.bulkEnded p m).modTeardown p fun t => { t with endOwed := false }) (o := false) bulk
      (by rw [State.modTeardown, port_modPort_same, port]) (fun _ => rfl)
      (fun q other => by rw [State.modTeardown, port_modPort_other _ other, others q other]) bufs freeList claimWait channels
    rw [endBulk_eq, foldl_enterFree_map (poolApart_modTeardown p _)]
    exact (State.PoolBut.enterFrees (w := (w.map fun s => s.bulkEnded p m).map fun s => s.modTeardown p fun t => { t with endOwed := false })
      ended (drained_nodup ..) due).1

end

end Sys2Proof.Machine
end

section
/-! The pool's laws through the requests and operations that change a port's session, windows, policy or quota, and through expiries
(R72, R77 to R79, R87 to R89, R132 to R137, R160 to R163). -/

namespace Sys2Proof.Machine

section
variable {s t : State} {w : Work} {p q : Port} {b : BufIx} {c : ChanIx} {code : ReqCode} {E : List BufIx}

/-! ## Requests that another block carries out (R29) -/

/-- A request that another block carries out finds its port up, and its engine BUSY with it and with no mover at work. -/
structure State.Handed (s : State) (p : Port) (code : ReqCode) : Prop where
  up : s.sessionState p ≠ .resetting
  state : (s.port p).engine.state = .busy
  bulk : (s.port p).engine.bulk = none
  admitted : admits (s.sessionState p) code = true

theorem handed_of_blockReady (h : s.ControlLawful p) (ready : s.blockReady p code = true)
    (quiet : ¬(code = .fill ∨ code = .copy ∨ code = .claim)) : s.Handed p code := by
  obtain ⟨⟨⟨_, up⟩, busy⟩, request⟩ : ((_ ∧ s.sessionState p ≠ .resetting) ∧ (s.port p).engine.state = .busy) ∧
      (s.port p).engine.request.any (fun r => r.code == code) = true := by
    simpa only [State.blockReady, Bool.and_eq_true, bne_iff_ne, beq_iff_eq] using ready
  obtain ⟨r, hr, same⟩ := Option.any_eq_true .. |>.1 request
  have same : r.code = code := eq_of_beq same
  refine ⟨up, busy, Option.not_isSome_iff_eq_none.1 fun moves => ?_, same ▸ h.session.admitted up r hr⟩
  exact quiet (same ▸ (h.engine.bulk moves).2 r hr)

theorem State.Handed.runs (h : s.Handed p code) (control : s.ControlLawful p) (other : code ≠ .attach) : s.Runs p :=
  ⟨open_of_not_resetting control (not_detached_of_admits h.admitted other) h.up, h.state, h.bulk⟩

/-! ## MAP and UNMAP (R87 to R89) -/

/-- What the pool's laws look at in a port, beside its windows, is the same in both. -/
structure PortState.WindowsAside (x y : PortState) : Prop where
  engine : y.engine = x.engine := by rfl
  teardown : y.teardown = x.teardown := by rfl
  session : y.session.state = x.session.state := by rfl
  charge : y.charge = x.charge := by rfl
  quota : y.quota = x.quota := by rfl

/-- An open port's windows change: they then map what it has a role in. -/
theorem State.PoolBut.modWindows {f : PortState → PortState} (h : s.PoolBut E) (op : s.Open p)
    (aside : (s.port p).WindowsAside (f (s.port p)))
    (windows : ∀ w v, (f (s.port p)).window w = .mapped v → (s.buf (handleIx v.handle)).roleOf p = true ∧
      (v.mode = .rw → (s.buf (handleIx v.handle)).heldBy p = true)) : (s.modPort p f).PoolBut E := by
  have port : (s.modPort p f).port p = f (s.port p) := port_modPort_same ..
  have laws := h.ports p
  have session : (s.modPort p f).sessionState p = s.sessionState p := by
    rw [State.sessionState, port]
    exact aside.session
  refine h.modPort ⟨?_, ?_, ?_⟩ (by rw [aside.engine])
  · refine controlLawful_of_open ?_ ?_ ?_ ?_ ?_ ?_ ?_ laws.control.once
    · rw [State.Open, session, port, aside.teardown]
      exact op
    · rw [port, aside.engine]
      exact laws.control.engine
    · rw [session, port, aside.engine]
      exact laws.control.session.admitted
    · rw [session, port, aside.engine]
      exact laws.control.session.running
    · rw [session, port, aside.teardown]
      exact laws.control.teardown.runs
    · rw [port, aside.teardown]
      exact laws.control.teardown.start
    · rw [port, aside.engine]
      exact laws.control.waiting
  · exact laws.charge.congr (by rw [port]; exact aside.charge) (by rw [port]; exact aside.quota) fun _ => rfl
  · refine ⟨fun w v mapped => windows w v (by rwa [port] at mapped), fun m hm => ?_⟩
    rw [port, aside.engine] at hm
    exact laws.rights.mover m hm

theorem State.Runs.modWindows {f : PortState → PortState} (runs : s.Runs p) (aside : (s.port p).WindowsAside (f (s.port p))) :
    (s.modPort p f).Runs p := by
  have port : (s.modPort p f).port p = f (s.port p) := port_modPort_same ..
  constructor
  · rw [State.Open, State.sessionState, port, aside.session, aside.teardown]
    exact runs.op
  · rw [port, aside.engine]
    exact runs.state
  · rw [port, aside.engine]
    exact runs.bulk

theorem window_setWindow (x : PortState) (sel w : WindowSel) (v : Window) :
    (x.setWindow sel v).window w = if w = sel then v else x.window w := by
  cases sel <;> cases w <;> rfl

theorem mapWindow_window (x : PortState) (sel w : WindowSel) (v : View) :
    (x.mapWindow sel v).window w = if w = sel then .mapped v else x.window w := by
  rw [← window_setWindow, mapWindow_eq]
  split
  · cases w <;> rfl
  · rfl

theorem setWindow_aside (x : PortState) (sel : WindowSel) (v : Window) : x.WindowsAside (x.setWindow sel v) := by
  cases sel <;> exact {}

theorem mapWindow_aside (x : PortState) (sel : WindowSel) (v : View) : x.WindowsAside (x.mapWindow sel v) := by
  have set := setWindow_aside x sel (.mapped v)
  rw [mapWindow_eq]
  split
  · exact { set with }
  · exact set

theorem mapRefusal_checks (h : s.mapRefusal p = none) : (s.buf (handleIx (s.operand p 0))).roleOf p = true ∧
    (modeOperand (s.operand p 1) = .rw → (s.buf (handleIx (s.operand p 0))).heldBy p = true) := by
  unfold State.mapRefusal at h
  simp only at h
  split at h
  · exact nomatch h
  · split at h
    · exact nomatch h
    · split at h
      · exact nomatch h
      · rename_i role
        split at h
        · exact nomatch h
        · rename_i mode
          refine ⟨by simpa using role, fun rw => ?_⟩
          simpa [rw] using mode

theorem State.PoolBut.map' (h : w.state.PoolBut E) (runs : w.state.Runs p) : (w.map' p).state.PoolBut E := by
  unfold Work.map'
  split
  · exact h.refuse runs _
  · rename_i accepted
    have aside := mapWindow_aside (w.state.port p) (windowOperand (w.state.operand p 1))
      { handle := w.state.operand p 0, mode := modeOperand (w.state.operand p 1),
        length := (w.state.buf (handleIx (w.state.operand p 0))).length }
    refine State.PoolBut.complete (w := w.map fun s => s.modPort p _) (h.modWindows runs.op aside fun sel v mapped => ?_)
      (runs.modWindows aside) ..
    rw [mapWindow_window] at mapped
    split at mapped
    · cases mapped
      exact mapRefusal_checks accepted
    · exact (h.ports p).rights.windows sel v mapped

theorem State.PoolBut.unmap (h : w.state.PoolBut E) (runs : w.state.Runs p) : (w.unmap p).state.PoolBut E := by
  have aside := setWindow_aside (w.state.port p) (windowOperand (w.state.operand p 0)) .unmapped
  refine State.PoolBut.complete (w := w.map fun s => s.modPort p _) (h.modWindows runs.op aside fun sel v mapped => ?_)
    (runs.modWindows aside) ..
  rw [window_setWindow] at mapped
  split at mapped
  · exact nomatch mapped
  · exact (h.ports p).rights.windows sel v mapped

/-! ## SET_LEASE, SET_PARAM and CLEAR_STATUS (R72, R161, R163) -/

/-- A change of the state beside the pool, and of one port beside what the laws look at. -/
theorem State.PoolBut.modAlike {f : PortState → PortState} (h : s.PoolBut E) (alike : ∀ x : PortState, x.Alike (f x)) :
    (s.modPort p f).PoolBut E :=
  h.congr rfl rfl rfl rfl fun q => (beyond_modPort s p q alike).port

theorem State.Runs.modAlike {f : PortState → PortState} (runs : s.Runs p) (alike : ∀ x : PortState, x.Alike (f x)) :
    (s.modPort q f).Runs p :=
  runs.alike (beyond_modPort s q p alike).port

theorem State.PoolBut.setLease (h : w.state.PoolBut E) (runs : w.state.Runs p) : (w.setLease p).state.PoolBut E :=
  State.PoolBut.complete (w := w.map fun s => s.modPort p _) (h.modAlike fun _ => {}) (runs.modAlike fun _ => {}) ..

theorem setParameter_pool (s : State) (x : Param) (v : Nat) : (s.setParameter x v).buffers = s.buffers ∧
    (s.setParameter x v).freeList = s.freeList ∧ (s.setParameter x v).claimWait = s.claimWait ∧
      (s.setParameter x v).channels = s.channels ∧ ∀ p, (s.setParameter x v).port p = s.port p := by
  cases x <;> exact ⟨rfl, rfl, rfl, rfl, fun _ => rfl⟩

theorem State.PoolBut.setParameter (h : s.PoolBut E) (x : Param) (v : Nat) : (s.setParameter x v).PoolBut E := by
  obtain ⟨buffers, freeList, claimWait, channels, port⟩ := setParameter_pool s x v
  exact h.congr buffers freeList claimWait channels fun p => by rw [port]; exact alike_refl _

theorem State.PoolBut.setParam (h : w.state.PoolBut E) (runs : w.state.Runs p) : (w.setParam p).state.PoolBut E := by
  unfold Work.setParam
  simp only
  split
  · exact h.refuse runs _
  · split
    · exact h.refuse runs _
    · rename_i x _
      split
      · exact h.refuse runs _
      · have port := (setParameter_pool w.state x (w.state.operand p 1).toNat).2.2.2.2 p
        have runs' : (w.state.setParameter x (w.state.operand p 1).toNat).Runs p := runs.alike (by rw [port]; exact alike_refl _)
        exact State.PoolBut.complete (w := w.map fun s => State.placeParamChanged _ _ _) ((h.setParameter x _).placeAll ..)
          (runs'.placeAll ..) ..

theorem State.PoolBut.clearStatus (h : w.state.PoolBut E) (runs : w.state.Runs p) : (w.clearStatus p).state.PoolBut E := by
  unfold Work.clearStatus
  split
  · exact h.refuse runs _
  · exact State.PoolBut.complete (w := w.map State.clearMissed) (h.congr rfl rfl rfl rfl fun _ => alike_refl _)
      ⟨runs.op, runs.state, runs.bulk⟩ ..

/-! ## SET_QUOTA (R162) -/

/-- A quota takes a value between its port's charge and 256. -/
theorem State.PoolBut.setsQuota {v : Nat} (h : s.PoolBut E) (charge : (s.port p).charge ≤ v) (limit : v ≤ 256) :
    (s.modPort p fun x => { x with quota := v }).PoolBut E := by
  have laws := h.ports p
  have port : (s.modPort p fun x => { x with quota := v }).port p = { s.port p with quota := v } := port_modPort_same ..
  refine h.modPort ⟨?_, ?_, ?_⟩ rfl
  · exact State.ControlLawful.frame (s := s)
      { session := by rw [State.sessionState, port]; rfl
        teardown := by rw [port]
        engine := by rw [port]; exact laws.control.engine
        state := by rw [port]
        request := by rw [port]
        mover := by rw [port]
        windowA := by rw [port]; exact id
        windowB := by rw [port]; exact id
        roles := fun _ => id
        claims := Iff.rfl
        chans := fun _ => seenBy_refl .. } laws.control
  · rw [State.ChargeLawful, port]
    exact ⟨laws.charge.1, charge, limit⟩
  · exact laws.rights.mono (by rw [port]) (by rw [port]) (by rw [port]; exact fun _ => id) (fun _ => id) fun _ => id

theorem quotaRefusal_checks (h : s.quotaRefusal p = none) (operand : portOperand (s.operand p 0) = some q) :
    (s.port q).charge ≤ (s.operand p 1).toNat ∧ (s.operand p 1).toNat ≤ 256 := by
  unfold State.quotaRefusal at h
  simp only [operand] at h
  split at h
  · exact nomatch h
  · split at h
    · exact nomatch h
    · rename_i limits
      rw [Bool.or_eq_true, decide_eq_true_eq, decide_eq_true_eq] at limits
      omega

theorem serveTurn_port_other (other : p ≠ q) (w : Work) : (w.serveTurn q).state.port p = w.state.port p := by
  unfold Work.serveTurn
  split
  · split
    · rfl
    · exact serveClaim_port_other _ other _
  · rfl

theorem foldl_serveTurn_port {l : List Port} (off : p ∉ l) (w : Work) : (l.foldl Work.serveTurn w).state.port p = w.state.port p := by
  induction l generalizing w with
  | nil => rfl
  | cons q l ih =>
    rw [List.mem_cons, not_or] at off
    rw [List.foldl_cons, ih off.2, serveTurn_port_other off.1]

theorem giveEntry_port_other (other : p ≠ q) (w : Work) (c : ChanIx) (b : BufIx) (long : Bool) :
    (w.giveEntry q c b long).state.port p = w.state.port p := by
  rw [giveEntry_eq, complete_port_other _ other, map_state]
  unfold State.takes
  exact port_modPort_other _ other _

/-- A port that runs a request is not served. -/
theorem serveWaiter_port (h : w.state.ControlLawful p) (runs : w.state.Runs p) (q : Port) :
    (w.serveWaiter q).state.port p = w.state.port p := by
  unfold Work.serveWaiter
  split
  · rw [claimService_eq_foldl]
    exact foldl_serveTurn_port (runs.offClaims h) w
  · unfold Work.takeService
    split
    · rfl
    · rename_i c found
      have other : p ≠ q := fun same => runs.offTakes h c (same ▸ takeWaitOf_spec found)
      split
      · split
        · rfl
        · exact giveEntry_port_other other ..
      · rfl

theorem serveWaiter_runs (h : w.state.ControlLawful p) (runs : w.state.Runs p) (q : Port) : (w.serveWaiter q).state.Runs p :=
  runs.alike (by rw [serveWaiter_port h runs]; exact alike_refl _)

theorem State.Runs.setsQuota (runs : s.Runs p) (q : Port) (v : Nat) : (s.modPort q fun x => { x with quota := v }).Runs p := by
  have port := port_modPort s q p fun x => { x with quota := v }
  constructor
  · rw [State.Open, State.sessionState, port]
    split
    · exact runs.op
    · exact runs.op
  · rw [port]
    split
    · exact runs.state
    · exact runs.state
  · rw [port]
    split
    · exact runs.bulk
    · exact runs.bulk

theorem State.PoolBut.changeQuota {v : Nat} (h : w.state.PoolBut []) (runs : w.state.Runs p) (charge : (w.state.port q).charge ≤ v)
    (limit : v ≤ 256) : (w.changeQuota q v).state.PoolBut [] ∧ (w.changeQuota q v).state.Runs p := by
  have set := (h.setsQuota charge limit).placeAll (w.state.modPort q fun x => { x with quota := v }).attachedPorts
    (mkRecord .paramChanged (quotaCode q) v)
  have runs' := (runs.setsQuota q v).placeAll (w.state.modPort q fun x => { x with quota := v }).attachedPorts
    (mkRecord .paramChanged (quotaCode q) v)
  unfold Work.changeQuota
  simp only
  split
  · exact ⟨State.PoolBut.serveWaiter (w := w.map fun s => State.placeParamChanged _ _ _) set,
      serveWaiter_runs (w := w.map fun s => State.placeParamChanged _ _ _) (set.ports p).control runs' q⟩
  · exact ⟨set, runs'⟩

theorem State.PoolBut.setQuota (h : w.state.PoolBut []) (runs : w.state.Runs p) : (w.setQuota p).state.PoolBut [] := by
  unfold Work.setQuota
  split
  · exact h.refuse runs _
  · exact h
  · rename_i q accepted operand
    obtain ⟨charge, limit⟩ := quotaRefusal_checks accepted operand
    obtain ⟨changed, runs'⟩ := h.changeQuota runs charge limit
    exact changed.complete runs' ..

/-! ## Expiries (R77 to R79) -/

theorem State.PoolBut.takeEntry (h : s.PoolBut E) (x : Position) : (s.takeEntry x).PoolBut E :=
  h.congr rfl rfl rfl rfl fun _ => alike_refl _

theorem State.PoolBut.modRole {f : Role → Role} (h : s.PoolBut E) (ports : ∀ e, (f e).port = e.port) (x : Position) :
    (s.modRole x f).PoolBut E := by
  unfold State.modRole
  split
  · refine h.modBufKeeps ?_
    have keeps := keeps_of_leases (s.buf x.buffer) f id ports fun _ => rfl
    rwa [List.map_id] at keeps
  · rename_i p _
    refine h.modBufKeeps ?_
    have keeps := keeps_of_leases (s.buf x.buffer) id (fun e => if e.port = p then f e else e) (fun _ => rfl) fun e => by
      split
      · exact ports e
      · rfl
    rwa [Option.map_id] at keeps

/-- The role at a holder's position is its port's holding. -/
theorem roleAt_holds {x : Position} {r : Role} (role : x.role = .holder) (h : s.roleAt x = some r) :
    (s.buf x.buffer).heldBy r.port = true := by
  unfold State.roleAt at h
  simp only [role] at h
  rw [BufRec.heldBy, h, Option.any_some]
  exact beq_self_eq_true _

/-- The role at a reader's position is its port's reader role. -/
theorem roleAt_reads {x : Position} {r : Role} (role : x.role = .reader q) (h : s.roleAt x = some r) :
    (s.buf x.buffer).readBy r.port = true := by
  unfold State.roleAt at h
  simp only [role] at h
  exact List.any_eq_true.2 ⟨r, List.mem_of_find?_eq_some h, beq_self_eq_true _⟩

theorem expiredRole_spec {x : Position} {e : ExpiryEntry} {r : Role} (h : s.expiredRole x e = some r) : s.roleAt x = some r := by
  unfold State.expiredRole at h
  split at h
  · exact nomatch h
  · split at h
    · exact nomatch h
    · rename_i r' found
      split at h
      · exact nomatch h
      · split at h
        · exact nomatch h
        · split at h
          · exact nomatch h
          · exact found.trans h

theorem State.PoolBut.reclaimExpired {x : Position} {r : Role} (h : w.state.PoolBut []) (found : w.state.roleAt x = some r) :
    (w.reclaimExpired x r.port).state.PoolBut [] := by
  have told : (w.state.place r.port (w.state.roleRecord .reclaimed x)).PoolBut [] := h.place ..
  refine State.PoolBut.serveWaiter ?_
  unfold Work.reclaimAt
  split
  · rename_i holder
    have role := roleAt_holds holder found
    exact State.PoolBut.reclaimHolding (w := w.map fun s => s.place r.port (s.roleRecord .reclaimed x)) told List.not_mem_nil
      (by rw [map_state, place_buf]; exact role)
  · rename_i reader
    have role := roleAt_reads reader found
    exact State.PoolBut.reclaimReader (w := w.map fun s => s.place r.port (s.roleRecord .reclaimed x)) told List.not_mem_nil
      (by rw [map_state, place_buf]; exact role)

theorem State.PoolBut.warnRole (h : s.PoolBut E) (x : Position) (p : Port) : (s.warnRole x p).PoolBut E :=
  (h.modRole (f := fun e => { e with lease := some { remaining := (s.port p).session.grace, stage := .warned } }) (fun _ => rfl) x).place ..

theorem State.PoolBut.expiry (h : w.state.PoolBut []) : w.expiry.state.PoolBut [] := by
  unfold Work.expiry
  split
  · exact h
  · rename_i x _
    have taken : (w.map fun s => s.takeEntry x).state.PoolBut [] := h.takeEntry x
    simp only
    split
    · exact taken
    · rename_i r expired
      obtain ⟨e, _, role⟩ := Option.bind_eq_some_iff.1 expired
      split
      · exact taken.warnRole x r.port
      · exact taken.reclaimExpired (expiredRole_spec role)

/-! ## Session changes (R132 to R137) -/

/-- A port that is up and runs a request takes another session state, other than DETACHED and RESETTING, and its request ends. -/
theorem State.PoolBut.sessionEnds {x : SessionState} {g : Engine → Engine} (h : s.PoolBut E) (up : s.sessionState p ≠ .resetting)
    (busy : (s.port p).engine.state = .busy) (bulk : (s.port p).engine.bulk = none) (attached : x ≠ .detached) (up' : x ≠ .resetting)
    (ended : (g (s.port p).engine) = (s.port p).engine.completed .ok res0) : ((s.setSession p x).modEngine p g).PoolBut E := by
  have laws := h.ports p
  have state : (s.setSession p x).modEngine p g =
      s.modPort p fun y => { y with session := { y.session with state := x }, engine := g y.engine } := by
    rw [State.setSession, modSession_eq_modPort, modEngine_eq_modPort, modPort_modPort]
  rw [state]
  have port : (s.modPort p fun y => { y with session := { y.session with state := x }, engine := g y.engine }).port p =
      { s.port p with session := { (s.port p).session with state := x }, engine := (s.port p).engine.completed .ok res0 } := by
    rw [port_modPort_same, ended]
  have session : (s.modPort p fun y => { y with session := { y.session with state := x }, engine := g y.engine }).sessionState p = x := by
    rw [State.sessionState, port]
  have idle : (s.port p).teardown.phase = .idle := laws.control.teardown.runs.2 up
  have runs : ¬((s.port p).engine.state = .waiting) := by rw [busy]; exact nofun
  refine h.modPort ⟨?_, ?_, ?_⟩ (by rw [ended, bulk]; rfl)
  · refine controlLawful_of_open ⟨?_, ?_⟩ ?_ ?_ ?_ ?_ ?_ ?_ laws.control.once
    · rw [session]
      exact attached
    · rw [port, idle]
      rfl
    · rw [port]
      exact Engine.completed_lawful ..
    · rw [port]
      exact nofun
    · rw [port]
      exact fun busy => busy.elim nofun nofun
    · rw [session, port, idle]
      exact ⟨fun _ => up', fun _ => rfl⟩
    · rw [port, idle]
      exact nofun
    · rw [port]
      exact ⟨nofun, fun waits => absurd (laws.control.waiting.2 waits) runs⟩
  · exact laws.charge.congr (by rw [port]) (by rw [port]) fun _ => rfl
  · exact laws.rights.mono (by rw [port]) (by rw [port]) (by rw [port]; exact nofun) (fun _ => id) fun _ => id

theorem State.PoolBut.changeSession {x : SessionState} (h : w.state.PoolBut E) (handed : w.state.Handed p code) (attached : x ≠ .detached)
    (up : x ≠ .resetting) : (w.changeSession p x).state.PoolBut E := by
  have commutes := (engineApart_placeAll ((w.state.setSession p x).attachedOthers p) (mkRecord .peerState p.val (sessionValue x))).comm
    (w.state.setSession p x) p fun e => e.completed .ok res0
  refine Eq.mp (congrArg (State.PoolBut E) commutes) ?_
  exact (h.sessionEnds (g := fun e => e.completed .ok res0) handed.up handed.state handed.bulk attached up rfl).placeAll ..

/-- A port becomes RESETTING, with its teardown before the fence step. -/
theorem State.PoolBut.startTeardown (h : s.PoolBut E) (p : Port) : (s.startTeardown p).PoolBut E := by
  have laws := h.ports p
  have port : (s.startTeardown p).port p = { s.port p with
      session := { (s.port p).session with state := .resetting }
      teardown := { (s.port p).teardown with phase := .fence, nextBuffer := 0, nextChannel := 0 } } := by
    rw [startTeardown_eq, port_modPort_same]
  have session : (s.startTeardown p).sessionState p = .resetting := by rw [State.sessionState, port]
  rw [startTeardown_eq] at port session ⊢
  refine h.modPort ⟨?_, ?_, ?_⟩ rfl
  · refine controlLawful_of_open ⟨?_, ?_⟩ ?_ ?_ ?_ ?_ ?_ ?_ laws.control.once
    · rw [session]
      exact nofun
    · rw [port]
      rfl
    · rw [port]
      exact laws.control.engine
    · exact fun up => absurd session up
    · exact fun _ => .inr session
    · rw [port]
      exact ⟨nofun, fun up => absurd session up⟩
    · rw [port]
      exact fun _ => ⟨rfl, rfl⟩
    · rw [port]
      exact laws.control.waiting
  · exact laws.charge.congr (by rw [port]) (by rw [port]) fun _ => rfl
  · exact laws.rights.mono (by rw [port]) (by rw [port]) (by rw [port]; exact fun _ => id) (fun _ => id) fun _ => id

theorem State.PoolBut.withdrawAccess (h : s.PoolBut E) (p : Port) : (s.withdrawAccess p).PoolBut E := by
  unfold State.withdrawAccess
  split
  · exact h.modAlike fun _ => {}
  · exact h

theorem State.PoolBut.prstFalls (h : s.PoolBut E) (p : Port) : (s.prstFalls p).PoolBut E := by
  have low : (((s.withdrawAccess p).modPort p PortState.endAccess).setPrst p true).PoolBut E :=
    ((h.withdrawAccess p).modAlike fun _ => {}).modAlike fun _ => {}
  unfold State.prstFalls
  simp only
  split
  · exact (low.startTeardown p).modAlike (f := fun x => { x with session := { x.session with sessionChange := true } }) fun _ => {}
  · exact low

end

end Sys2Proof.Machine
end

section
/-! The pool's laws through the fence step and the final step of a teardown (R141, R145). -/

namespace Sys2Proof.Machine

section
variable {s t : State} {w : Work} {p q : Port} {b : BufIx} {c : ChanIx} {E : List BufIx}

/-! ## Teardown Units -/

/-- The laws of a port whose Teardown Unit alone makes progress. -/
theorem State.PortLawful.progress {u : Teardown} (h : s.PortLawful p) (port : t.port p = { s.port p with teardown := u })
    (bufs : ∀ b, t.buf b = s.buf b) (chans : ∀ c, t.chan c = s.chan c) (claimWait : t.claimWait = s.claimWait)
    (teardown : t.TeardownLawful p) : t.PortLawful p := by
  have session : t.sessionState p = s.sessionState p := by rw [State.sessionState, port]; rfl
  have takes (c : ChanIx) : t.TakeWaits p c ↔ s.TakeWaits p c := by rw [State.TakeWaits, State.TakeWaits, chans]
  refine ⟨⟨?_, ⟨?_, ?_, ?_, ?_, ?_⟩, teardown, ?_, ?_⟩, ?_, ?_⟩
  · rw [port]
    exact h.control.engine
  · rw [session, port]
    exact h.control.session.admitted
  · rw [session, port]
    exact h.control.session.running
  · rw [session, port]
    exact h.control.session.unmapped
  · simp only [session, bufs]
    exact h.control.session.noRole
  · simp only [session, chans]
    exact h.control.session.noChannel
  · simp only [takes, claimWait, port]
    exact h.control.waiting
  · simp only [takes, claimWait]
    exact h.control.once
  · exact h.charge.congr (by rw [port]) (by rw [port]) fun b => by rw [bufs]
  · exact h.rights.mono (by rw [port]) (by rw [port]) (by rw [port]; exact fun _ => id) (fun b => by rw [bufs]; exact id)
      fun b => by rw [bufs]; exact id

/-- A Teardown Unit makes progress. -/
theorem State.PoolBut.modTeardown {g : Teardown → Teardown} (h : s.PoolBut E) (teardown : (s.modTeardown p g).TeardownLawful p) :
    (s.modTeardown p g).PoolBut E :=
  h.modPort (f := fun x => { x with teardown := g x.teardown })
    ((h.ports p).progress (port_modPort_same ..) (fun _ => rfl) (fun _ => rfl) rfl teardown) rfl

/-- The laws of the unit after its fence step, of its progress alone. -/
structure State.Progress (s : State) (p : Port) (u : Teardown) : Prop where
  after : u.phase.afterFence = true
  rolesBehind : u.phase = .roles → ∀ b : BufIx, b.val < u.nextBuffer → (s.buf b).roleOf p = false
  noRole : u.phase.afterRoles = true → ∀ b, (s.buf b).roleOf p = false
  channelsBehind : ∀ c, (s.chan c).concerns p = true → u.nextChannel ≤ c.val ∨ u.inHand = some c
  inHand : ∀ c ∈ u.inHand, (s.chan c).concerns p = true → (s.chan c).closer = some p
  found : u.inHandTakenOver = false → ∀ c ∈ u.inHand, ∀ d : ChanIx, d.val < c.val → (s.chan d).concerns p = false
  noChannel : u.phase = .final → ∀ c, (s.chan c).concerns p = false

theorem progress_of_lawful (h : s.TeardownLawful p) (after : (s.port p).teardown.phase.afterFence = true) :
    s.Progress p (s.port p).teardown :=
  ⟨after, h.rolesBehind, h.noRole, h.channelsBehind after, h.inHand after, h.found after, h.noChannel⟩

/-- A unit after its fence step goes on, with its end step still owed or not. -/
theorem State.PoolBut.progresses {g : Teardown → Teardown} (h : s.PoolBut E) (after : (s.port p).teardown.phase.afterFence = true)
    (owed : (g (s.port p).teardown).endOwed = (s.port p).teardown.endOwed) (progress : s.Progress p (g (s.port p).teardown)) :
    (s.modTeardown p g).PoolBut E := by
  have before := (h.ports p).control.teardown
  have session : (s.modTeardown p g).sessionState p = s.sessionState p := by
    rw [State.sessionState, State.modTeardown, port_modPort_same]
    rfl
  have port : (s.modTeardown p g).port p = { s.port p with teardown := g (s.port p).teardown } := port_modPort_same ..
  have busy {x : TeardownPhase} (h : x.afterFence = true) : x ≠ .idle ∧ x ≠ .fence := by
    cases x with
    | idle => exact nomatch h
    | fence => exact nomatch h
    | roles | channels | final => exact ⟨nofun, nofun⟩
  refine h.modTeardown ⟨?_, ?_, ?_, ?_, ?_, ?_, ?_, ?_, ?_, ?_, ?_, ?_⟩
  · rw [session, port, ← before.runs]
    exact ⟨fun idle => absurd idle (busy progress.after).1, fun idle => absurd idle (busy after).1⟩
  · rw [port]
    exact fun fence => absurd fence (busy progress.after).2
  · rw [port]
    exact fun _ => before.fenced after
  · rw [port]
    exact fun _ => before.unmapped after
  · rw [port]
    exact fun _ => owed ▸ before.owed after
  · exact fun _ => before.unicast after
  · rw [port]
    exact progress.rolesBehind
  · rw [port]
    exact progress.noRole
  · rw [port]
    exact fun _ => progress.channelsBehind
  · rw [port]
    exact fun _ => progress.inHand
  · rw [port]
    exact fun _ => progress.found
  · rw [port]
    exact progress.noChannel

/-! ## The fence step (R141) -/

theorem State.PoolBut.waitsLawful (h : s.PoolBut E) : s.WaitsLawful :=
  ⟨h.claims, fun p => (h.ports p).control.waiting, fun p => (h.ports p).control.once⟩

/-- A channel at the fence step of a port: a UNICAST channel to it becomes CLOSING under it, and any other loses it as a waiter. -/
theorem cutOff_cases (x : Chan) (p : Port) :
    (∃ u, x.setup = some u ∧ u.kind = .unicast ∧ maskHas u.destinations p = true ∧
      x.cutOff p = { x.withoutWaiter p with status := .closing u p }) ∨
    x.unicastTo p = false ∧ x.cutOff p = x.withoutWaiter p := by
  rw [cutOff_eq, show (x.withoutWaiter p).unicastTo p = x.unicastTo p from rfl]
  by_cases unicast : x.unicastTo p = true
  · obtain ⟨u, setup, here⟩ := Option.any_eq_true .. |>.1 unicast
    rw [Bool.and_eq_true, beq_iff_eq] at here
    have setup' : (x.withoutWaiter p).setup = some u := setup
    exact .inl ⟨u, setup, here.1, here.2, by rw [if_pos unicast, Chan.closeUnder, setup']⟩
  · exact .inr ⟨Bool.eq_false_iff.2 unicast, if_neg unicast⟩

theorem member_of_single {m : PortMask} (single : (maskPorts m).length = 1) (hp : maskHas m p = true) (hq : maskHas m q = true) : q = p := by
  obtain ⟨a, only⟩ := List.length_eq_one_iff.1 single
  have here (r : Port) (on : maskHas m r = true) : r = a := List.mem_singleton.1 (only ▸ (mem_maskPorts ..).2 on)
  exact (here q hq).trans (here p hp).symm

theorem cutOff_lawful {x : Chan} (h : x.Lawful) (p : Port) : (x.cutOff p).Lawful := by
  have less := withoutWaiter_lawful h p
  rcases cutOff_cases x p with ⟨u, setup, kind, lists, cut⟩ | ⟨_, cut⟩
  · have setup' : (x.cutOff p).setup = some u := by rw [cut]; rfl
    have none : (x.withoutWaiter p).takeWaiters = 0 := (mask_eq_zero_iff _).2 fun q => by
      refine Bool.eq_false_iff.2 fun waits => ?_
      have member : maskHas x.destinations q = true := less.member waits
      rw [destinations_of_setup setup] at member
      rw [Chan.withoutWaiter, maskHas_erase, member_of_single (h.unicast u setup kind) lists member, decide_eq_true rfl, Bool.not_true,
        Bool.and_false] at waits
      exact Bool.false_ne_true waits
    have waiters : (x.cutOff p).takeWaiters = 0 := by rw [cut]; exact none
    refine ⟨fun closed => (nomatch closed.symm.trans setup'), fun _ => waiters, by rw [waiters]; exact BitVec.zero_and, ?_, ?_, ?_, ?_⟩
    · rw [setup', ← setup]
      exact h.ports
    · rw [setup', ← setup, cut]
      exact h.capacity
    · rw [setup', ← setup]
      exact h.unicast
    · rw [cut]
      exact h.nodup
  · rw [cut]
    exact less

theorem cutOff_destinations (x : Chan) (p : Port) : (x.cutOff p).destinations = x.destinations := by
  rcases cutOff_cases x p with ⟨u, setup, _, _, cut⟩ | ⟨_, cut⟩
  · rw [destinations_of_setup setup, cut]
    rfl
  · rw [cut]
    rfl

theorem cutOff_queue (x : Chan) (p : Port) : (x.cutOff p).queue = x.queue := rfl

theorem cutOff_waits (x : Chan) (p q : Port) :
    maskHas (x.cutOff p).takeWaiters q = (maskHas x.takeWaiters q && !decide (q = p)) := maskHas_erase ..

/-- The fence step of a port shows no other port anything new in a channel. -/
theorem cutOff_seenBy {x : Chan} (h : x.Lawful) (other : q ≠ p) : x.SeenBy q (x.cutOff p) := by
  have waits : maskHas (x.cutOff p).takeWaiters q = maskHas x.takeWaiters q := by
    rw [cutOff_waits, decide_eq_false other, Bool.not_false, Bool.and_true]
  rcases cutOff_cases x p with ⟨u, setup, kind, lists, cut⟩ | ⟨_, cut⟩
  · refine seenBy_of_nothing waits (Bool.eq_false_iff.2 fun on => other ?_) ?_
    · rw [cutOff_destinations, destinations_of_setup setup] at on
      exact member_of_single (h.unicast u setup kind) lists on
    · rw [cut]
      exact fun same => other (Option.some.inj same).symm
  · exact seenBy_of_status (by rw [cut]; rfl) waits

theorem cutOff_unicast {x : Chan} (unicast : (x.cutOff p).unicastTo p = true) : (x.cutOff p).closer = some p := by
  rcases cutOff_cases x p with ⟨u, _, _, _, cut⟩ | ⟨other, cut⟩
  · rw [cut]
    rfl
  · rw [cut] at unicast
    exact absurd (other.symm.trans unicast) Bool.false_ne_true

theorem closeTaken_closer (s : State) (p : Port) : ∀ c ∈ s.closeTaken p, ((s.chan c).cutOff p).closer = some p := by
  intro c taken
  unfold State.closeTaken at taken
  split at taken
  · split at taken
    · cases taken
      assumption
    · exact nomatch taken
  · exact nomatch taken

/-- The fence step, but for what it tells the other ports. -/
def State.fencedOff (s : State) (p : Port) : State :=
  (s.cutOff p).modPort p fun x => { x.fenced with teardown := x.teardown.fenced (s.closeTaken p) x.engine.bulk.isSome }

theorem fencedOff_frame (s : State) (p : Port) :
    (s.fencedOff p).port p = { (s.port p).fenced with
      teardown := (s.port p).teardown.fenced (s.closeTaken p) (s.port p).engine.bulk.isSome } ∧
    (∀ q, q ≠ p → (s.fencedOff p).port q = s.port q) ∧ (∀ b, (s.fencedOff p).buf b = s.buf b) ∧
      (∀ c, (s.fencedOff p).chan c = (s.chan c).cutOff p) ∧ (s.fencedOff p).claimWait = s.claimWait.erase p ∧
        (s.fencedOff p).freeList = s.freeList :=
  ⟨port_modPort_same .., fun _ other => port_modPort_other _ other _, fun _ => rfl, cutOff_chan s p, rfl, rfl⟩

theorem offClaims_erase (claims : s.claimWait.Nodup) (p : Port) : p ∉ s.claimWait.erase p :=
  fun mem => ((List.Nodup.mem_erase_iff claims).1 mem).1 rfl

theorem State.PoolBut.fencedOff_own (h : s.PoolBut E) (phase : (s.port p).teardown.phase = .fence) : (s.fencedOff p).PortLawful p := by
  obtain ⟨port, _, bufs, chans, claimWait, _⟩ := fencedOff_frame s p
  have laws := h.ports p
  have resetting : s.sessionState p = .resetting := by
    by_contra up
    exact nomatch (laws.control.teardown.runs.2 up).symm.trans phase
  obtain ⟨buffer, channel⟩ := laws.control.teardown.start phase
  have session : (s.fencedOff p).sessionState p = .resetting := by
    rw [State.sessionState, port]
    exact resetting
  have offTakes (c : ChanIx) : ¬(s.fencedOff p).TakeWaits p c := fun waits => by
    rw [State.TakeWaits, chans, cutOff_waits, decide_eq_true rfl, Bool.not_true, Bool.and_false] at waits
    exact Bool.false_ne_true waits
  refine ⟨⟨?_, ?_, ?_, ?_, fun c waits => absurd waits (offTakes c)⟩, ?_, ?_⟩
  · rw [port]
    exact (Engine.Moves.fenced _).lawful laws.control.engine
  · have attached : (s.fencedOff p).sessionState p ≠ .detached := by rw [session]; exact nofun
    exact ⟨fun up => absurd session up, fun _ => .inr session, fun off => absurd off attached, fun off => absurd off attached,
      fun off => absurd off attached⟩
  · refine ⟨?_, ?_, ?_, ?_, ?_, ?_, ?_, ?_, ?_, ?_, ?_, ?_⟩
    · rw [port]
      exact ⟨nofun, fun up => absurd session up⟩
    · rw [port]
      exact nofun
    · rw [port]
      exact fun _ => ⟨rfl, rfl⟩
    · rw [port]
      exact fun _ => ⟨rfl, rfl⟩
    · rw [port]
      exact fun _ => by
        show _ ↔ ((s.port p).engine.bulk.map _).isSome = true
        rw [Option.isSome_map]
        exact Iff.rfl
    · simp only [chans]
      exact fun _ c => cutOff_unicast
    · rw [port]
      intro _ b less
      have less : b.val < (s.port p).teardown.nextBuffer := less
      exact absurd less (by omega)
    · rw [port]
      exact nofun
    · rw [port]
      intro _ c _
      exact .inl (show (s.port p).teardown.nextChannel ≤ c.val by omega)
    · rw [port]
      intro _ c taken _
      rw [chans]
      exact closeTaken_closer s p c taken
    · rw [port]
      exact fun _ => nofun
    · rw [port]
      exact nofun
  · rw [port, claimWait]
    exact ⟨nofun, fun waits => waits.elim (fun mem => absurd mem (offClaims_erase h.claims p)) fun ⟨c, takes⟩ => absurd takes (offTakes c)⟩
  · exact laws.charge.congr (by rw [port]; rfl) (by rw [port]; rfl) fun b => by rw [bufs]
  · refine ⟨fun w v mapped => ?_, fun m hm _ clear => ?_⟩
    · rw [port] at mapped
      cases w
      · exact nomatch mapped
      · exact nomatch mapped
    · rw [port] at hm
      obtain ⟨m', _, rfl⟩ := Option.map_eq_some_iff.1 hm
      exact nomatch clear

theorem State.PoolBut.fencedOff (h : s.PoolBut E) (phase : (s.port p).teardown.phase = .fence) : (s.fencedOff p).PoolBut E := by
  obtain ⟨port, others, bufs, chans, claimWait, freeList⟩ := fencedOff_frame s p
  exact
    { ports := fun q => by
        by_cases same : q = p
        · rw [same]
          exact h.fencedOff_own phase
        · refine (h.ports q).beyond ⟨by rw [others q same]; exact alike_refl _, fun b => by rw [bufs]; exact ⟨rfl, rfl⟩, ?_, fun c => ?_⟩
          · rw [claimWait]
            exact List.mem_erase_of_ne same
          · rw [chans]
            exact cutOff_seenBy (h.channels c) same
      claims := claimWait ▸ h.claims.erase p
      records := fun b => by
        rw [bufs]
        exact h.records b
      channels := fun c => by
        rw [chans]
        exact cutOff_lawful (h.channels c) p
      frees := freeList ▸ h.frees
      linked := fun b off => (h.linked b off).leaves
        ⟨bufs b, by rw [freeList], fun c => by rw [chans, cutOff_queue], fun c _ => by rw [chans, cutOff_destinations]⟩
      bulk := h.bulk.congr (fun q => by
        by_cases same : q = p
        · rw [same, port]
          show ((s.port p).engine.bulk.map _).map _ = _
          rw [Option.map_map]
          rfl
        · rw [others q same]) fun b => by rw [bufs] }

theorem State.PoolBut.fence (h : s.PoolBut E) (phase : (s.port p).teardown.phase = .fence) : (s.fence p).PoolBut E := by
  rw [fence_eq h.waitsLawful]
  exact (h.fencedOff phase).placeAll ..

/-! ## The final step (R145) -/

/-- Nothing is left of a port to take apart, and no end step is owed. -/
structure State.TakenApart (s : State) (p : Port) : Prop where
  after : (s.port p).teardown.phase.afterRoles = true
  noChannel : ∀ c, (s.chan c).concerns p = false
  owed : (s.port p).teardown.endOwed = false

theorem afterFence_of_roles {x : TeardownPhase} (h : x.afterRoles = true) : x.afterFence = true := by
  cases x with
  | idle | fence | roles => exact nomatch h
  | channels | final => rfl

/-- A channel that does not concern a port, and is not UNICAST to it, does not list it. -/
theorem not_listed {x : Chan} (concerns : x.concerns p = false) (unicast : x.unicastTo p = false) :
    maskHas x.destinations p = false := by
  refine Bool.eq_false_iff.2 fun lists => ?_
  cases setup : x.setup with
  | none =>
    rw [Chan.destinations, setup] at lists
    exact Bool.false_ne_true ((maskHas_none p).symm.trans lists)
  | some u =>
    rw [destinations_of_setup setup] at lists
    cases kind : u.kind with
    | unicast =>
      rw [Chan.unicastTo, setup, Option.any_some, kind, lists] at unicast
      exact nomatch unicast
    | fanout =>
      rw [Chan.concerns, setup, Option.any_some, kind, lists] at concerns
      exact Bool.false_ne_true (concerns.symm.trans (Bool.or_true _))

theorem State.PoolBut.finishTeardown (h : s.PoolBut E) (done : s.TakenApart p) : (s.finishTeardown p).PoolBut E := by
  have laws := h.ports p
  have after := afterFence_of_roles done.after
  obtain ⟨busy, _⟩ := laws.control.teardown.fenced after
  obtain ⟨windowA, windowB⟩ := laws.control.teardown.unmapped after
  have bulk : (s.port p).engine.bulk = none := Option.not_isSome_iff_eq_none.1 fun moves =>
    Bool.false_ne_true (done.owed.symm.trans ((laws.control.teardown.owed after).2 moves))
  have port : (s.modPort p PortState.finished).port p = (s.port p).finished := port_modPort_same ..
  have session : (s.modPort p PortState.finished).sessionState p = .detached := by rw [State.sessionState, port]; rfl
  have unlisted (c : ChanIx) : maskHas (s.chan c).destinations p = false := by
    refine not_listed (done.noChannel c) (Bool.eq_false_iff.2 fun unicast => ?_)
    exact Bool.false_ne_true ((done.noChannel c).symm.trans (concerns_of_closer (laws.control.teardown.unicast after c unicast)))
  have never {a : Prop} (after : ((s.modPort p PortState.finished).port p).teardown.phase.afterFence = true) : a := by
    rw [port] at after
    exact absurd after Bool.false_ne_true
  have own : (s.modPort p PortState.finished).PortLawful p := by
    refine ⟨⟨?_, ⟨?_, ?_, ?_, fun _ => laws.control.teardown.noRole done.after, fun _ => unlisted⟩, ?_, ?_, laws.control.once⟩, ?_, ?_⟩
    · rw [port]
      exact Engine.reset_lawful
    · rw [port]
      exact nofun
    · rw [port]
      exact fun busy => busy.elim nofun nofun
    · rw [port]
      exact fun _ => ⟨windowA, windowB⟩
    · refine ⟨?_, ?_, never, never, never, never, ?_, ?_, never, never, never, ?_⟩
      · rw [session, port]
        exact ⟨fun _ => nofun, fun _ => rfl⟩
      · rw [port]
        exact nofun
      · exact fun phase => never (by rw [phase]; rfl)
      · exact fun phase => never (afterFence_of_roles phase)
      · exact fun phase => never (by rw [phase]; rfl)
    · rw [port]
      refine ⟨nofun, fun waits => ?_⟩
      exact nomatch busy.symm.trans (laws.control.waiting.2 waits)
    · exact laws.charge.congr (by rw [port]; rfl) (by rw [port]; rfl) fun _ => rfl
    · refine ⟨fun w v mapped => ?_, ?_⟩
      · rw [port] at mapped
        cases w
        · exact nomatch windowA.symm.trans mapped
        · exact nomatch windowB.symm.trans mapped
      · rw [port]
        exact nofun
  rw [finishTeardown_eq]
  exact (h.modPort own (by rw [bulk]; rfl)).placeAll ..

end

end Sys2Proof.Machine
end

section
/-! The pool's laws through the role steps of a teardown, and through the channel steps beside the removal of a destination
(R61, R62, R142, R144). -/

namespace Sys2Proof.Machine

section
variable {s t : State} {w v : Work} {p q : Port} {b d : BufIx} {c : ChanIx} {E : List BufIx}

/-! ## What a step finds -/

theorem searchRole_spec (found : s.searchRole p = some b) : (s.buf b).roleOf p = true ∧
    ∀ d : BufIx, d.val < b.val → (s.port p).teardown.nextBuffer ≤ d.val → (s.buf d).roleOf p = false := by
  have here := List.find?_some found
  rw [Bool.and_eq_true, decide_eq_true_eq] at here
  refine ⟨here.2, fun d less reached => Bool.eq_false_iff.2 fun role => ?_⟩
  have near := find_nearest (d := fun x : BufIx => x.val) (List.pairwise_lt_finRange 256) found (List.mem_finRange d)
    (by rw [Bool.and_eq_true, decide_eq_true_eq]; exact ⟨reached, role⟩)
  exact absurd less (Nat.not_lt.2 near)

theorem searchRole_empty (none : s.searchRole p = none) (d : BufIx) (reached : (s.port p).teardown.nextBuffer ≤ d.val) :
    (s.buf d).roleOf p = false := by
  have passed := List.find?_eq_none.1 none d (List.mem_finRange d)
  rw [Bool.and_eq_true, decide_eq_true_eq, not_and] at passed
  exact Bool.eq_false_iff.2 (passed reached)

theorem searchChannel_spec (found : s.searchChannel p = some c) : (s.chan c).concerns p = true ∧
    ∀ d : ChanIx, d.val < c.val → (s.port p).teardown.nextChannel ≤ d.val → (s.chan d).concerns p = false := by
  have here := List.find?_some found
  rw [Bool.and_eq_true, decide_eq_true_eq] at here
  refine ⟨here.2, fun d less reached => Bool.eq_false_iff.2 fun concerns => ?_⟩
  have near := find_nearest (d := fun x : ChanIx => x.val) (List.pairwise_lt_finRange 16) found (List.mem_finRange d)
    (by rw [Bool.and_eq_true, decide_eq_true_eq]; exact ⟨reached, concerns⟩)
  exact absurd less (Nat.not_lt.2 near)

theorem searchChannel_empty (none : s.searchChannel p = none) (d : ChanIx) (reached : (s.port p).teardown.nextChannel ≤ d.val) :
    (s.chan d).concerns p = false := by
  have passed := List.find?_eq_none.1 none d (List.mem_finRange d)
  rw [Bool.and_eq_true, decide_eq_true_eq, not_and] at passed
  exact Bool.eq_false_iff.2 (passed reached)

/-- After its fence step a port waits for nothing. -/
theorem offClaims_of_fenced (h : s.ControlLawful p) (after : (s.port p).teardown.phase.afterFence = true) : p ∉ s.claimWait := fun mem =>
  nomatch (h.teardown.fenced after).1.symm.trans (h.waiting.2 (.inl mem))

theorem offTakes_of_fenced (h : s.ControlLawful p) (after : (s.port p).teardown.phase.afterFence = true) (c : ChanIx) :
    ¬s.TakeWaits p c := fun takes =>
  nomatch (h.teardown.fenced after).1.symm.trans (h.waiting.2 (.inr ⟨c, takes⟩))

/-! ## Role steps (R142) -/

theorem serveClaim_buf (w : Work) (q : Port) (b : BufIx) : ∃ v, (w.serveClaim q b).state.buf b = (w.state.buf b).handedTo q v := by
  obtain ⟨g, state, _⟩ := claimGiven_state (w.map fun s => (s.handOut q b).setClaimWait (s.claimWait.erase q)) q b true
  unfold Work.serveClaim
  rw [state, map_state, handOut_then_engine]
  exact ⟨_, buf_modBuf_same w.state b fun r => r.handedTo q (w.state.port q).session.holdLease⟩

/-- The last-use rule gives no role to a port that does not wait for a buffer. -/
theorem lastUse_noRole (off : p ∉ w.state.claimWait) (none : (w.state.buf b).roleOf p = false) :
    ((w.lastUse b).state.buf b).roleOf p = false := by
  unfold Work.lastUse Work.enterFree
  split
  · have freed : ((w.map fun s => s.modBuf b BufRec.freed).state.buf b) = (w.state.buf b).freed := buf_modBuf_same ..
    simp only
    split
    · rename_i q found
      have other : p ≠ q := fun same => off (same ▸ List.mem_of_find?_eq_some found)
      obtain ⟨v, handed⟩ := serveClaim_buf (w.map fun s => s.modBuf b BufRec.freed) q b
      rw [handed, BufRec.roleOf, (handedTo_heldNow ..).heldBy, decide_eq_false other, freed]
      rfl
    · show ((w.map fun s => s.modBuf b BufRec.freed).state.buf b).roleOf p = false
      rw [freed]
      rfl
  · exact none

/-- What a reclaim leaves of the roles of a port that does not wait for a buffer, and of its Teardown Unit. -/
theorem reclaimed_frame {f : BufRec → BufRec} {uses : Bool} (state : v.state = (s.modBuf b f).modPort p fun x => x.loses b uses)
    (off : p ∉ s.claimWait) (lost : (f (s.buf b)).roleOf p = false) :
    ((v.lastUse b).state.port p).teardown = (s.port p).teardown ∧ ((v.lastUse b).state.buf b).roleOf p = false ∧
      ∀ d, d ≠ b → (v.lastUse b).state.buf d = s.buf d := by
  have off' : p ∉ v.state.claimWait := by rw [state]; exact off
  refine ⟨?_, lastUse_noRole off' ?_, fun d other => ?_⟩
  · rw [lastUse_port_other off', state, port_modPort_same]
    rfl
  · rw [state, buf_modPort, buf_modBuf_same]
    exact lost
  · rw [(leaves_lastUse v other).record, state, buf_modPort, buf_modBuf_other _ other]

/-- The reclaim of a role step, with what it leaves. -/
theorem State.PoolBut.reclaimStep (h : w.state.PoolBut []) (off : p ∉ w.state.claimWait) (role : (w.state.buf b).roleOf p = true) :
    ∃ v : Work, (if (w.state.buf b).heldBy p then w.reclaimHolding p b else w.reclaimReader p b) = v ∧ v.state.PoolBut [] ∧
      (v.state.port p).teardown = (w.state.port p).teardown ∧ (v.state.buf b).roleOf p = false ∧
        ∀ d, d ≠ b → v.state.buf d = w.state.buf d := by
  refine ⟨_, rfl, ?_⟩
  split
  · rename_i held
    obtain ⟨⟨noHold, noRead⟩, _⟩ := unheld_lost (h.records b) held
    exact ⟨h.reclaimHolding List.not_mem_nil held, reclaimed_frame (loses_port w.state p b (fun m => m.uses b) BufRec.unheld) off
      (by rw [BufRec.roleOf, noHold, noRead]; rfl)⟩
  · rename_i held
    have reads : (w.state.buf b).readBy p = true := by
      rw [BufRec.roleOf, Bool.eq_false_iff.2 held, Bool.false_or] at role
      exact role
    obtain ⟨⟨noHold, noRead⟩, _⟩ := unread_lost (h.records b) reads
    exact ⟨h.reclaimReader List.not_mem_nil reads, reclaimed_frame (loses_port w.state p b (fun m => m.readsFrom b) fun r => r.unread p) off
      (by rw [BufRec.roleOf, noHold, noRead]; rfl)⟩

theorem State.PoolBut.reclaimFound (h : w.state.PoolBut []) (phase : (w.state.port p).teardown.phase = .roles)
    (found : w.state.searchRole p = some b) : (w.reclaimFound p b).state.PoolBut [] := by
  have control := (h.ports p).control
  have after : (w.state.port p).teardown.phase.afterFence = true := by rw [phase]; rfl
  obtain ⟨role, passed⟩ := searchRole_spec found
  obtain ⟨v, step, laws, teardown, gone, others⟩ := h.reclaimStep (offClaims_of_fenced control after) role
  unfold Work.reclaimFound
  rw [step]
  have after' : (v.state.port p).teardown.phase.afterFence = true := by rw [teardown]; exact after
  have progress := progress_of_lawful (laws.ports p).control.teardown after'
  refine laws.progresses (g := fun t => { t with nextBuffer := b.val + 1 }) after' rfl
    { progress with rolesBehind := fun _ d less => ?_ }
  by_cases same : d = b
  · rw [same]
    exact gone
  · rw [others d same]
    have below : d.val < b.val := by
      have apart : d.val ≠ b.val := fun e => same (Fin.ext e)
      have less : d.val < b.val + 1 := less
      omega
    by_cases reached : (w.state.port p).teardown.nextBuffer ≤ d.val
    · exact passed d below reached
    · exact control.teardown.rolesBehind phase d (by omega)

/-- A unit whose search finds no role goes on to the channels. -/
theorem State.PoolBut.rolesEnd (h : s.PoolBut E) (phase : (s.port p).teardown.phase = .roles) (none : s.searchRole p = none) :
    (s.modTeardown p fun t => { t with phase := .channels }).PoolBut E := by
  have control := (h.ports p).control
  have after : (s.port p).teardown.phase.afterFence = true := by rw [phase]; rfl
  have progress := progress_of_lawful control.teardown after
  refine h.progresses after rfl { progress with
    after := rfl, rolesBehind := nofun, noChannel := nofun, noRole := fun _ b => ?_ }
  by_cases reached : (s.port p).teardown.nextBuffer ≤ b.val
  · exact searchRole_empty none b reached
  · exact control.teardown.rolesBehind phase b (by omega)

/-! ## Channel steps on a channel in hand (R144 rows 1 to 4) -/

/-- A channel in hand that concerns the port no longer is let go. -/
theorem State.PoolBut.letsGo (h : s.PoolBut E) (after : (s.port p).teardown.phase.afterFence = true)
    (inHand : (s.port p).teardown.inHand = some c) (over' : (s.chan c).concerns p = false) :
    (s.modTeardown p fun t => t.letGo c).PoolBut E := by
  have progress := progress_of_lawful (h.ports p).control.teardown after
  refine h.progresses after rfl { progress with channelsBehind := fun d concerns => ?_, inHand := nofun, found := fun _ => nofun }
  have other : d ≠ c := fun same => Bool.false_ne_true (over'.symm.trans (same ▸ concerns))
  have reached : (s.port p).teardown.nextChannel ≤ d.val :=
    (progress.channelsBehind d concerns).resolve_right fun hand => other (Option.some.inj (hand.symm.trans inHand))
  refine .inl ?_
  show (if (s.port p).teardown.inHandTakenOver then (s.port p).teardown.nextChannel else c.val + 1) ≤ d.val
  split
  · exact reached
  · rename_i searched
    have beyond : ¬d.val < c.val := fun less =>
      Bool.false_ne_true ((progress.found (Bool.eq_false_iff.2 searched) c inHand d less).symm.trans concerns)
    have apart : d.val ≠ c.val := fun e => other (Fin.ext e)
    omega

theorem lastCloseStep_teardown (s : State) (c : ChanIx) (p : Port) :
    ((s.lastCloseStep c p).port p).teardown = (s.port p).teardown ∧ ((s.lastCloseStep c p).chan c).concerns p = false := by
  constructor
  · exact placeAll_induct (P := fun t => (t.port p).teardown = (s.port p).teardown)
      (fun t q h => (beyond_place t q _ p).port.teardown.trans h) _ _ rfl
  · unfold State.lastCloseStep
    rw [placeAll_ports_alone]
    show ((s.closeChan c).chan c).concerns p = false
    rw [State.closeChan, setChan_eq_modChan, chan_modChan_same]
    rfl

theorem State.PoolBut.channelInHand (h : w.state.PoolBut []) (after : (w.state.port p).teardown.phase.afterFence = true)
    (inHand : (w.state.port p).teardown.inHand = some c) : (w.channelInHand p c).state.PoolBut [] := by
  have teardown := (h.ports p).control.teardown
  unfold Work.channelInHand
  split
  · rename_i under
    refine h.letsGo after inHand (Bool.eq_false_iff.2 fun concerns => ?_)
    rw [closingUnder_iff.2 (teardown.inHand after c inHand concerns)] at under
    exact nomatch under
  · rename_i under
    have closer : (w.state.chan c).closer = some p := closingUnder_iff.1 (by simpa using under)
    split
    · rename_i empty
      obtain ⟨unit, over'⟩ := lastCloseStep_teardown w.state c p
      exact (h.lastCloseStep closer empty p).letsGo (by rw [unit]; exact after) (by rw [unit]; exact inHand) over'
    · rename_i b rest queue
      exact h.disposeEntry (h.linked b List.not_mem_nil) (by rw [queue]; exact List.mem_cons_self)

/-- A channel that the search finds CLOSING under the port is taken in hand. -/
theorem State.PoolBut.takesInHand (h : s.PoolBut E) (after : (s.port p).teardown.phase.afterFence = true)
    (none : (s.port p).teardown.inHand = none) (found : s.searchChannel p = some c) (closer : (s.chan c).closer = some p) :
    (s.modTeardown p fun t => { t with inHand := some c, inHandTakenOver := false }).PoolBut E := by
  obtain ⟨_, passed⟩ := searchChannel_spec found
  have progress := progress_of_lawful (h.ports p).control.teardown after
  have reached (d : ChanIx) (concerns : (s.chan d).concerns p = true) : (s.port p).teardown.nextChannel ≤ d.val :=
    (progress.channelsBehind d concerns).resolve_right fun hand => nomatch hand.symm.trans none
  refine h.progresses after rfl { progress with
    channelsBehind := fun d concerns => .inl (reached d concerns)
    inHand := fun d hand _ => Option.some.inj hand ▸ closer
    found := fun _ d hand e less => Bool.eq_false_iff.2 fun concerns => ?_ }
  obtain rfl := Option.some.inj hand
  exact Bool.false_ne_true ((passed e less (reached e concerns)).symm.trans concerns)

/-! ## The end of the channel steps (R144 row 6) -/

theorem State.PoolBut.channelsDone (h : w.state.PoolBut []) (phase : (w.state.port p).teardown.phase = .channels)
    (none : (w.state.port p).teardown.inHand = none) (left : w.state.searchChannel p = Option.none) :
    (w.channelsDone p).state.PoolBut [] := by
  have after : (w.state.port p).teardown.phase.afterFence = true := by rw [phase]; rfl
  have progress := progress_of_lawful (h.ports p).control.teardown after
  have noChannel (c : ChanIx) : (w.state.chan c).concerns p = false := Bool.eq_false_iff.2 fun concerns => by
    have reached := (progress.channelsBehind c concerns).resolve_right fun hand => nomatch hand.symm.trans none
    exact Bool.false_ne_true ((searchChannel_empty left c reached).symm.trans concerns)
  unfold Work.channelsDone
  split
  · exact h.progresses (g := fun t => { t with phase := .final }) after rfl { progress with
      after := rfl, rolesBehind := nofun, noRole := fun _ => progress.noRole (by rw [phase]; rfl), noChannel := fun _ => noChannel }
  · rename_i owed
    exact h.finishTeardown ⟨by rw [phase]; rfl, noChannel, Bool.eq_false_iff.2 owed⟩

end

end Sys2Proof.Machine
end

section
/-! The pool's laws through the removal of a torn-down port from a FANOUT channel (R65), and the steps of a teardown as wholes
(R142, R144). -/

namespace Sys2Proof.Machine

section
variable {s t : State} {w v : Work} {p q : Port} {b d : BufIx} {c d' : ChanIx} {x : Chan} {u : ChanSetup} {E : List BufIx}

/-! ## Buffers that the last-use rule takes one after the other -/

theorem leaves_finish (w : Work) (b : BufIx) : w.state.Leaves w.finish b :=
  finish_induct (leaves_refl ..) fun t p r (h : w.state.Leaves t b) => h.trans (leaves_place t p r b)

theorem lastUsed_eq (s : State) (b : BufIx) : s.lastUsed b = ((Work.start s).lastUse b).finish := by
  rw [finish_lastUse]
  rfl

theorem leaves_lastUsed (s : State) (other : b ≠ d) : s.Leaves (s.lastUsed d) b := by
  rw [lastUsed_eq]
  exact (leaves_lastUse (Work.start s) other).trans (leaves_finish ..)

theorem finish_teardown (w : Work) (p : Port) : (w.finish.port p).teardown = (w.state.port p).teardown :=
  finish_induct (P := fun t => (t.port p).teardown = (w.state.port p).teardown) rfl fun t q r h =>
    (beyond_place t q r p).port.teardown.trans h

theorem lastUsed_teardown (off : p ∉ s.claimWait) (b : BufIx) : ((s.lastUsed b).port p).teardown = (s.port p).teardown := by
  rw [lastUsed_eq, finish_teardown, lastUse_port_other off, start_state]

/-- Buffers that stand nowhere go where the last-use rule sends them; a port that is being torn down sees none of it in its unit. -/
theorem State.PoolBut.lastUses {l : List BufIx} (h : s.PoolBut l) (distinct : l.Nodup) (loose : ∀ b ∈ l, s.Loose b) :
    (l.foldl State.lastUsed s).PoolBut [] ∧ ∀ p, (s.port p).teardown.phase.afterFence = true →
      ((l.foldl State.lastUsed s).port p).teardown = (s.port p).teardown := by
  induction l generalizing s with
  | nil => exact ⟨h, fun _ _ => rfl⟩
  | cons b l ih =>
    obtain ⟨away, distinct⟩ := List.nodup_cons.1 distinct
    have first : (s.lastUsed b).PoolBut l := by
      rw [lastUsed_eq]
      exact (State.PoolBut.lastUse (w := Work.start s) h (loose b List.mem_cons_self)).finish
    obtain ⟨laws, units⟩ := ih first distinct fun d mem =>
      (loose d (List.mem_cons_of_mem _ mem)).leaves (leaves_lastUsed s fun same => away (same ▸ mem))
    refine ⟨laws, fun p after => ?_⟩
    have unit := lastUsed_teardown (offClaims_of_fenced (h.ports p).control after) b
    exact (units p (by rw [unit]; exact after)).trans unit

/-! ## A destination is gone (R65) -/

/-- The pool once a port has left the pending sets of a channel whose record has become `x`, before the last-use rule. -/
def State.destinationCut (s : State) (c : ChanIx) (p : Port) (x : Chan) : State :=
  (s.chan c).queue.foldl (fun t b => t.modBuf b fun r => r.withoutPending p) (s.modChan c fun _ => x)

theorem destinationGone_eq (s : State) (c : ChanIx) (p : Port) (x : Chan) :
    s.destinationGone c p x = (s.goneWith c p).foldl State.lastUsed (s.destinationCut c p x) := rfl

theorem destinationCut_rest (s : State) (c : ChanIx) (p : Port) (x : Chan) :
    (∀ q, (s.destinationCut c p x).port q = s.port q) ∧ (s.destinationCut c p x).freeList = s.freeList ∧
      (s.destinationCut c p x).claimWait = s.claimWait ∧ (s.destinationCut c p x).chan c = x ∧
        ∀ d, d ≠ c → (s.destinationCut c p x).chan d = s.chan d := by
  unfold State.destinationCut
  rw [foldl_modBuf_rest]
  exact ⟨fun _ => rfl, rfl, rfl, chan_modChan_same s c fun _ => x, fun d other => chan_modChan_other s other fun _ => x⟩

theorem destinationCut_buf (distinct : (s.chan c).queue.Nodup) (p : Port) (x : Chan) (b : BufIx) :
    (s.destinationCut c p x).buf b = if b ∈ (s.chan c).queue then (s.buf b).withoutPending p else s.buf b :=
  foldl_modBuf_buf _ b distinct _

/-- What becomes of a channel that a port leaves. -/
structure State.Leaving (s : State) (c : ChanIx) (p : Port) (x : Chan) : Prop where
  lawful : x.Lawful
  seen : ∀ q, (s.chan c).SeenBy q x
  queue : ∀ b, b ∈ x.queue ↔ b ∈ (s.chan c).queue ∧ maskErase (s.buf b).pending p ≠ 0
  lists : x.destinations = maskErase (s.chan c).destinations p

theorem mem_goneWith : b ∈ s.goneWith c p ↔ b ∈ (s.chan c).queue ∧ maskErase (s.buf b).pending p = 0 := by
  simp [State.goneWith]

theorem withoutPending_sameRoles (r : BufRec) (p q : Port) : r.SameRoles q (r.withoutPending p) := ⟨rfl, rfl⟩

theorem withoutPending_rolesLawful {r : BufRec} (h : r.RolesLawful) (p : Port) : (r.withoutPending p).RolesLawful where
  held some := by
    obtain ⟨readers, pending⟩ := h.held some
    refine ⟨readers, ?_⟩
    show maskErase r.pending p = 0
    rw [pending]
    exact (mask_eq_zero_iff _).2 fun q => by rw [maskHas_erase, maskHas_none, Bool.false_and]
  readers := h.readers
  pending e mem := by
    show maskHas (maskErase r.pending p) e.port = false
    rw [maskHas_erase, h.pending e mem, Bool.false_and]
  length := h.length

theorem erase_subset {m n : PortMask} (sub : m &&& ~~~n = 0) (p : Port) : maskErase m p &&& ~~~(maskErase n p) = 0 :=
  (mask_subset_iff ..).2 fun q on => by
    rw [maskHas_erase, Bool.and_eq_true] at on ⊢
    exact ⟨(mask_subset_iff m n).1 sub q on.1, on.2⟩

/-- An entry of a channel is on no Free List. -/
theorem entry_not_free (linked : s.Linked b) (mem : b ∈ (s.chan c).queue) : b ∉ s.freeList := fun free =>
  linked.channel.1 (by rw [(linked.stands c).1 mem]; rfl) (roles_of_unused ((state_free_iff _).1 (linked.free.1 free)).1).2.2

section
variable (h : s.PoolBut []) (leaving : s.Leaving c p x)
include h leaving

/-- An entry that keeps a pending destination keeps its place. -/
theorem State.Leaving.stays (mem : b ∈ (s.chan c).queue) (some : maskErase (s.buf b).pending p ≠ 0) :
    (s.destinationCut c p x).Linked b := by
  obtain ⟨_, freeList, _, chan, others⟩ := destinationCut_rest s c p x
  have linked := h.linked b List.not_mem_nil
  have named := (linked.stands c).1 mem
  have buf : (s.destinationCut c p x).buf b = (s.buf b).withoutPending p := by
    rw [destinationCut_buf (h.channels c).nodup, if_pos mem]
  have pending : ((s.buf b).withoutPending p).pending = maskErase (s.buf b).pending p := rfl
  have channel : ((s.buf b).withoutPending p).channel = Option.some c := (if_neg some).trans named
  refine ⟨⟨?_, fun d => ?_, fun d on => ?_⟩, ?_⟩
  · rw [buf, channel, pending]
    exact ⟨fun _ => some, fun _ => rfl⟩
  · rw [buf, channel, ← named]
    by_cases same : d = c
    · rw [same, chan, leaving.queue, ← linked.stands]
      exact and_iff_left some
    · rw [others d same]
      exact linked.stands d
  · rw [buf, channel] at on
    obtain rfl := Option.some.inj on
    rw [buf, pending, chan, leaving.lists]
    exact erase_subset (linked.pending c named) p
  · rw [freeList, buf, state_free_iff]
    refine ⟨fun free => absurd free (entry_not_free linked mem), fun free => ?_⟩
    exact absurd (roles_of_unused free.1).2.2 some

/-- An entry left with nothing pending stands nowhere. -/
theorem State.Leaving.falls (mem : b ∈ (s.chan c).queue) (none : maskErase (s.buf b).pending p = 0) :
    (s.destinationCut c p x).Loose b := by
  obtain ⟨_, freeList, _, chan, others⟩ := destinationCut_rest s c p x
  have linked := h.linked b List.not_mem_nil
  have named := (linked.stands c).1 mem
  have buf : (s.destinationCut c p x).buf b = (s.buf b).withoutPending p := by
    rw [destinationCut_buf (h.channels c).nodup, if_pos mem]
  have channel : ((s.buf b).withoutPending p).channel = Option.none := if_pos none
  refine ⟨⟨?_, fun d => ?_, fun d on => ?_⟩, by rw [freeList]; exact entry_not_free linked mem⟩
  · rw [buf, channel]
    exact ⟨nofun, fun some => absurd none some⟩
  · rw [buf, channel]
    refine ⟨fun still => ?_, nofun⟩
    by_cases same : d = c
    · rw [same, chan] at still
      exact absurd none ((leaving.queue b).1 still).2
    · rw [others d same] at still
      exact absurd (Option.some.inj (((linked.stands d).1 still).symm.trans named)) same
  · rw [buf, channel] at on
    exact nomatch on

/-- A buffer that was not in the queue is where it was. -/
theorem State.Leaving.leaves (off : b ∉ (s.chan c).queue) : s.Leaves (s.destinationCut c p x) b := by
  obtain ⟨_, freeList, _, chan, others⟩ := destinationCut_rest s c p x
  refine ⟨by rw [destinationCut_buf (h.channels c).nodup, if_neg off], by rw [freeList], fun d => ?_, fun d mem => ?_⟩
  · by_cases same : d = c
    · rw [same, chan, leaving.queue]
      exact and_iff_left_of_imp fun mem => absurd mem off
    · rw [others d same]
  · by_cases same : d = c
    · exact absurd (same ▸ mem) off
    · rw [others d same]

theorem State.PoolBut.destinationCut : (s.destinationCut c p x).PoolBut (s.goneWith c p) := by
  obtain ⟨ports, freeList, claimWait, chan, others⟩ := destinationCut_rest s c p x
  have bufs := destinationCut_buf (h.channels c).nodup p x
  exact
    { ports := fun q => (h.ports q).beyond
        ⟨by rw [ports]; exact alike_refl _, fun b => by
          rw [bufs]
          split
          · exact withoutPending_sameRoles ..
          · exact ⟨rfl, rfl⟩, by rw [claimWait], fun d => by
          by_cases same : d = c
          · rw [same, chan]
            exact leaving.seen q
          · rw [others d same]
            exact seenBy_refl ..⟩
      claims := claimWait ▸ h.claims
      records := fun b => by
        rw [bufs]
        split
        · exact withoutPending_rolesLawful (h.records b) p
        · exact h.records b
      channels := fun d => by
        by_cases same : d = c
        · rw [same, chan]
          exact leaving.lawful
        · rw [others d same]
          exact h.channels d
      frees := freeList ▸ h.frees
      linked := fun b off => by
        by_cases mem : b ∈ (s.chan c).queue
        · exact leaving.stays h mem fun none => off (mem_goneWith.2 ⟨mem, none⟩)
        · exact (h.linked b List.not_mem_nil).leaves (leaving.leaves h mem)
      bulk := h.bulk.congr (fun q => by rw [ports]) fun b => by
        rw [bufs]
        split <;> rfl }

theorem State.PoolBut.destinationGone : (s.destinationGone c p x).PoolBut [] ∧ ∀ p', (s.port p').teardown.phase.afterFence = true →
    ((s.destinationGone c p x).port p').teardown = (s.port p').teardown := by
  have ports := (destinationCut_rest s c p x).1
  obtain ⟨laws, units⟩ := (h.destinationCut leaving).lastUses ((h.channels c).nodup.filter _) fun b mem => by
    obtain ⟨mem, none⟩ := mem_goneWith.1 mem
    exact leaving.falls h mem none
  simp only [ports] at units
  exact ⟨laws, units⟩

end

/-! ## The channel that the port leaves -/

theorem chanWithout_setup (setup : (s.chan c).setup = some u) (p : Port) :
    (s.chanWithout c p).setup = some { u with destinations := maskErase u.destinations p } ∧
      (s.chanWithout c p).closer = (s.chan c).closer := by
  unfold State.chanWithout Chan.setup Chan.closer ChanStatus.withoutDestination
  unfold Chan.setup at setup
  cases status : (s.chan c).status with
  | closed => rw [status] at setup; exact nomatch setup
  | opened v => rw [status] at setup; cases setup; exact ⟨rfl, rfl⟩
  | closing v q => rw [status] at setup; cases setup; exact ⟨rfl, rfl⟩

section
variable (lawful : (s.chan c).Lawful) (setup : (s.chan c).setup = some u) (fanout : u.kind = .fanout)
include lawful setup fanout

/-- The channel goes on without the port. -/
theorem leaving_chanWithout (off : ¬s.TakeWaits p c) (some : maskErase u.destinations p ≠ 0) : s.Leaving c p (s.chanWithout c p) := by
  obtain ⟨setup', closer⟩ := chanWithout_setup setup p
  have waiters (q : Port) : maskHas (s.chanWithout c p).takeWaiters q = (maskHas (s.chan c).takeWaiters q && !decide (q = p)) :=
    maskHas_erase ..
  have lists : (s.chanWithout c p).destinations = maskErase (s.chan c).destinations p := by
    rw [destinations_of_setup setup', destinations_of_setup setup]
  have listed (q : Port) (on : maskHas (maskErase u.destinations p) q = true) : maskHas u.destinations q = true := by
    rw [maskHas_erase, Bool.and_eq_true] at on
    exact on.1
  refine ⟨⟨fun closed => (nomatch closed.symm.trans setup'), fun closing => ?_, ?_, ?_, ?_, ?_, lawful.nodup.filter _⟩, fun q => ?_,
    fun b => by simp [State.chanWithout], lists⟩
  · rw [closer] at closing
    refine (mask_eq_zero_iff _).2 fun q => ?_
    rw [waiters, lawful.closing closing, maskHas_none, Bool.false_and]
  · rw [lists]
    exact erase_subset lawful.waiters p
  · rw [setup']
    intro v hv
    obtain rfl := Option.some.inj hv
    exact ⟨some, (lawful.ports u setup).2⟩
  · rw [setup']
    intro v hv
    obtain rfl := Option.some.inj hv
    obtain ⟨low, high, length⟩ := lawful.capacity u setup
    exact ⟨low, high, (List.length_filter_le ..).trans length⟩
  · rw [setup']
    intro v hv kind
    obtain rfl := Option.some.inj hv
    exact nomatch fanout.symm.trans kind
  · refine ⟨?_, fun on => ?_, fun on => ?_, fun on => ?_, fun own _ => closer.trans own⟩
    · rw [waiters]
      by_cases same : q = p
      · rw [same, Bool.eq_false_iff.2 off, Bool.false_and]
      · rw [decide_eq_false same, Bool.not_false, Bool.and_true]
    · rw [destinations_of_setup setup'] at on
      rw [destinations_of_setup setup]
      exact listed q on
    · rw [Chan.unicastTo, setup', Option.any_some, fanout] at on
      exact nomatch on
    · rw [Chan.concerns, setup', closer, Option.any_some, Bool.or_eq_true, Bool.and_eq_true] at on
      rw [Chan.concerns, setup, Option.any_some, Bool.or_eq_true, Bool.and_eq_true]
      exact on.imp_right (And.imp_right (listed q))

omit fanout in
/-- The channel is left with no destination, and closes. -/
theorem leaving_reset (off : ¬s.TakeWaits p c) (none : maskErase u.destinations p = 0)
    (pending : ∀ b ∈ (s.chan c).queue, (s.buf b).pending &&& ~~~(s.chan c).destinations = 0) : s.Leaving c p Chan.reset := by
  have destinations := destinations_of_setup setup
  refine ⟨reset_lawful, fun q => seenBy_of_nothing ?_ (maskHas_none q) nofun, fun b => ?_, ?_⟩
  · refine (maskHas_none q).trans (Eq.symm (Bool.eq_false_iff.2 fun waits => ?_))
    have other : q ≠ p := fun same => off (same ▸ waits)
    have member := lawful.member waits
    rw [destinations] at member
    have still : maskHas (maskErase u.destinations p) q = true := by rw [maskHas_erase, member, decide_eq_false other]; rfl
    rw [none, maskHas_none] at still
    exact Bool.false_ne_true still
  · refine ⟨nofun, fun ⟨mem, kept⟩ => absurd ?_ kept⟩
    have sub := erase_subset (pending b mem) p
    rw [destinations, none] at sub
    refine (mask_eq_zero_iff _).2 fun q => Bool.eq_false_iff.2 fun on => ?_
    have lists := (mask_subset_iff ..).1 sub q on
    exact Bool.false_ne_true ((maskHas_none q).symm.trans lists)
  · rw [destinations, none]
    rfl

end

/-! ## The steps as wholes -/

/-- What a channel that concerns a port is, when it is not CLOSING under it. -/
theorem fanout_of_concerns (concerns : x.concerns p = true) (other : x.closer ≠ some p) :
    ∃ u, x.setup = some u ∧ u.kind = .fanout ∧ maskHas u.destinations p = true := by
  rw [Chan.concerns, Bool.or_eq_true] at concerns
  obtain ⟨u, setup, here⟩ := Option.any_eq_true .. |>.1 (concerns.resolve_left fun same => other (eq_of_beq same))
  rw [Bool.and_eq_true, beq_iff_eq] at here
  exact ⟨u, setup, here⟩

theorem chanWithout_unconcerned (setup : (s.chan c).setup = some u) (other : (s.chan c).closer ≠ some p) :
    (s.chanWithout c p).concerns p = false := by
  obtain ⟨setup', closer⟩ := chanWithout_setup setup p
  rw [Chan.concerns, setup', closer, Option.any_some, maskHas_erase, decide_eq_true rfl, Bool.not_true, Bool.and_false, Bool.and_false,
    Bool.or_false]
  exact beq_eq_false_iff_ne.2 other

theorem destinationGone_chan_other (s : State) (p : Port) (x : Chan) (other : d' ≠ c) : (s.destinationGone c p x).chan d' = s.chan d' := by
  rw [destinationGone_eq, foldl_lastUsed_chan]
  exact (destinationCut_rest s c p x).2.2.2.2 d' other

/-- The port that is being torn down leaves a FANOUT channel. -/
theorem State.PoolBut.removeDestination (h : s.PoolBut []) (after : (s.port p).teardown.phase.afterFence = true)
    (concerns : (s.chan c).concerns p = true) (other : (s.chan c).closer ≠ some p) :
    ∃ t, ((Work.start s).removeDestination c p).finish = t ∧ t.PoolBut [] ∧ (t.port p).teardown = (s.port p).teardown ∧
      (t.chan c).concerns p = false ∧ ∀ d, d ≠ c → t.chan d = s.chan d := by
  obtain ⟨u, setup, fanout, _⟩ := fanout_of_concerns concerns other
  have lawful := h.channels c
  have off := offTakes_of_fenced (h.ports p).control after c
  refine ⟨_, finish_removeDestination setup lawful.nodup, ?_⟩
  split
  · rename_i none
    obtain ⟨laws, units⟩ := h.destinationGone (leaving_reset lawful setup off none fun b mem =>
      (h.linked b List.not_mem_nil).pending c (((h.linked b List.not_mem_nil).stands c).1 mem))
    exact ⟨laws, units p after, by rw [destinationGone_chan]; rfl, fun d other => destinationGone_chan_other s p _ other⟩
  · rename_i some
    obtain ⟨laws, units⟩ := h.destinationGone (leaving_chanWithout lawful setup fanout off some)
    exact ⟨laws, units p after, by rw [destinationGone_chan]; exact chanWithout_unconcerned setup other,
      fun d other => destinationGone_chan_other s p _ other⟩

/-- The search goes on beyond a FANOUT channel that the port has left. -/
theorem State.PoolBut.leavesFanout (h : s.PoolBut []) (after : (s.port p).teardown.phase.afterFence = true)
    (none : (s.port p).teardown.inHand = none) (found : s.searchChannel p = some c) (other : (s.chan c).closer ≠ some p) :
    (((Work.start s).removeDestination c p).map fun s => s.modTeardown p fun t => { t with nextChannel := c.val + 1 }).finish.PoolBut [] := by
  obtain ⟨concerns, passed⟩ := searchChannel_spec found
  obtain ⟨t, step, laws, unit, gone, others⟩ := h.removeDestination after concerns other
  rw [finish_map_modTeardown, step]
  have after' : (t.port p).teardown.phase.afterFence = true := by rw [unit]; exact after
  have progress := progress_of_lawful (laws.ports p).control.teardown after'
  refine laws.progresses (g := fun t => { t with nextChannel := c.val + 1 }) after' rfl { progress with
    channelsBehind := fun d concerns => .inl ?_ }
  have apart : d ≠ c := fun same => Bool.false_ne_true (gone.symm.trans (same ▸ concerns))
  have reached : (s.port p).teardown.nextChannel ≤ d.val := by
    have reached := (progress.channelsBehind d concerns).resolve_right fun hand => by
      rw [unit, none] at hand
      exact nomatch hand
    rwa [unit] at reached
  rw [others d apart] at concerns
  have beyond : ¬d.val < c.val := fun less => Bool.false_ne_true ((passed d less reached).symm.trans concerns)
  have ne : d.val ≠ c.val := fun e => apart (Fin.ext e)
  show c.val + 1 ≤ d.val
  omega

theorem State.PoolBut.channelStep (h : s.PoolBut []) (phase : (s.port p).teardown.phase = .channels) :
    ((Work.start s).channelStep p).finish.PoolBut [] := by
  have after : (s.port p).teardown.phase.afterFence = true := by rw [phase]; rfl
  cases inHand : (s.port p).teardown.inHand with
  | some c =>
    rw [channelStep_of_inHand inHand]
    exact (State.PoolBut.channelInHand (w := Work.start s) h after inHand).finish
  | none =>
    cases found : s.searchChannel p with
    | some c =>
      by_cases closer : (s.chan c).closer = some p
      · rw [channelStep_of_closing inHand found closer]
        have taken := h.takesInHand after inHand found closer
        have port : (s.modTeardown p fun t => { t with inHand := some c, inHandTakenOver := false }).port p =
            { s.port p with teardown := { (s.port p).teardown with inHand := some c, inHandTakenOver := false } } := port_modPort_same ..
        refine (State.PoolBut.channelInHand
          (w := Work.start (s.modTeardown p fun t => { t with inHand := some c, inHandTakenOver := false })) taken ?_ ?_).finish
        · rw [start_state, port]
          exact after
        · rw [start_state, port]
      · rw [channelStep_of_fanout inHand found closer]
        exact h.leavesFanout after inHand found closer
    | none =>
      have last : (Work.start s).channelStep p = (Work.start s).channelsDone p := by
        unfold Work.channelStep
        rw [start_state, inHand]
        simp only [found]
      rw [last]
      exact (State.PoolBut.channelsDone (w := Work.start s) h phase inHand found).finish

theorem State.PoolBut.roleStep (h : s.PoolBut []) (phase : (s.port p).teardown.phase = .roles) :
    ((Work.start s).roleStep p).finish.PoolBut [] := by
  cases found : s.searchRole p with
  | some b =>
    have step : (Work.start s).roleStep p = (Work.start s).reclaimFound p b := by
      unfold Work.roleStep
      rw [start_state, found]
    rw [step]
    exact (State.PoolBut.reclaimFound (w := Work.start s) h phase found).finish
  | none =>
    rw [roleStep_of_none found]
    refine (h.rolesEnd phase found).channelStep ?_
    rw [State.modTeardown, port_modPort_same]

end

end Sys2Proof.Machine
end

section
/-! The pool's laws through bus accesses, bank grants, ticks, the device's reset, and what follows each command by itself
(R19, R67, R76, R113, R122 to R126, R159, R167). -/

namespace Sys2Proof.Machine

section
variable {s t : State} {p q : Port} {b : BufIx} {c : ChanIx} {E : List BufIx}

/-! ## Engines that move beside the pool -/

/-- What a port's engine may become beside the pool: it waits when it waited, a request of its own is gone or is one that the session admits,
and a mover goes on with the same buffers, or stops. -/
structure PortState.Moved (x y : PortState) : Prop where
  windowA : y.windowA = x.windowA := by rfl
  windowB : y.windowB = x.windowB := by rfl
  teardown : y.teardown = x.teardown := by rfl
  session : y.session.state = x.session.state := by rfl
  charge : y.charge = x.charge := by rfl
  quota : y.quota = x.quota := by rfl
  engine : y.engine.Lawful
  waiting : y.engine.state = .waiting ↔ x.engine.state = .waiting
  fenced : x.engine.state = .busy ∧ x.engine.request = none → y.engine.state = .busy ∧ y.engine.request = none
  request : ∀ r ∈ y.engine.request, r ∈ x.engine.request ∨ admits x.session.state r.code = true
  touches : y.engine.bulk.map Bulk.touches = x.engine.bulk.map Bulk.touches
  mover : ∀ m ∈ y.engine.bulk, m.phase = .moving → m.abort = false → ∃ m' ∈ x.engine.bulk, m'.phase = .moving ∧ m'.abort = false ∧
    m.destination = m'.destination ∧ m.source = m'.source

theorem PortState.Moved.bulk {x y : PortState} (h : x.Moved y) : y.engine.bulk.isSome = x.engine.bulk.isSome := by
  rw [← Option.isSome_map (f := Bulk.touches), h.touches, Option.isSome_map]

/-- An engine that keeps its state, its request and its mover lets its port be beside the pool. -/
theorem moved_of_engine {x y : PortState} (lawful : y.engine.Lawful) (state : y.engine.state = x.engine.state)
    (request : y.engine.request = x.engine.request) (bulk : y.engine.bulk = x.engine.bulk)
    (windowA : y.windowA = x.windowA := by rfl) (windowB : y.windowB = x.windowB := by rfl)
    (teardown : y.teardown = x.teardown := by rfl) (session : y.session.state = x.session.state := by rfl)
    (charge : y.charge = x.charge := by rfl) (quota : y.quota = x.quota := by rfl) : x.Moved y :=
  { windowA, windowB, teardown, session, charge, quota
    engine := lawful
    waiting := by rw [state]
    fenced := by rw [state, request]; exact id
    request := by rw [request]; exact fun r hr => .inl hr
    touches := by rw [bulk]
    mover := by rw [bulk]; exact fun m hm moving clear => ⟨m, hm, moving, clear, rfl, rfl⟩ }

theorem State.PortLawful.moved (h : s.PortLawful p) (moved : (s.port p).Moved (t.port p)) (roles : ∀ b, (s.buf b).SameRoles p (t.buf b))
    (claimWait : t.claimWait = s.claimWait) (chans : ∀ c, t.chan c = s.chan c) : t.PortLawful p := by
  have session : t.sessionState p = s.sessionState p := moved.session
  have takes (c : ChanIx) : t.TakeWaits p c ↔ s.TakeWaits p c := by rw [State.TakeWaits, State.TakeWaits, chans]
  have before := h.control.teardown
  refine ⟨⟨moved.engine, ⟨?_, ?_, ?_, ?_, ?_⟩, ⟨?_, ?_, ?_, ?_, ?_, ?_, ?_, ?_, ?_, ?_, ?_, ?_⟩, ?_, ?_⟩, ?_, ?_⟩
  · rw [session]
    exact fun up r hr => (moved.request r hr).elim (h.control.session.admitted up r) id
  · rw [session, moved.waiting, moved.bulk]
    exact h.control.session.running
  · rw [session, moved.windowA, moved.windowB]
    exact h.control.session.unmapped
  · simp only [session, (roles _).roleOf]
    exact h.control.session.noRole
  · simp only [session, chans]
    exact h.control.session.noChannel
  · rw [session, moved.teardown]
    exact before.runs
  · rw [moved.teardown]
    exact before.start
  · rw [moved.teardown]
    exact fun after => moved.fenced (before.fenced after)
  · rw [moved.teardown, moved.windowA, moved.windowB]
    exact before.unmapped
  · rw [moved.teardown, moved.bulk]
    exact before.owed
  · simp only [moved.teardown, chans]
    exact before.unicast
  · simp only [moved.teardown, (roles _).roleOf]
    exact before.rolesBehind
  · simp only [moved.teardown, (roles _).roleOf]
    exact before.noRole
  · simp only [moved.teardown, chans]
    exact before.channelsBehind
  · simp only [moved.teardown, chans]
    exact before.inHand
  · simp only [moved.teardown, chans]
    exact before.found
  · simp only [moved.teardown, chans]
    exact before.noChannel
  · simp only [takes, claimWait, moved.waiting]
    exact h.control.waiting
  · simp only [takes, claimWait]
    exact h.control.once
  · exact h.charge.congr moved.charge moved.quota fun b => (roles b).roleOf
  · refine ⟨fun w v mapped => ?_, fun m hm moving clear => ?_⟩
    · have mapped' : (s.port p).window w = .mapped v := by
        cases w
        · exact moved.windowA.symm.trans mapped
        · exact moved.windowB.symm.trans mapped
      rw [(roles _).roleOf, (roles _).1]
      exact h.rights.windows w v mapped'
    · obtain ⟨m', hm', moving', clear', destination, source⟩ := moved.mover m hm moving clear
      rw [(roles _).1, destination, source]
      simp only [(roles _).roleOf]
      exact h.rights.mover m' hm' moving' clear'

/-- The engines move beside the pool, and the records keep what the laws look at. -/
theorem State.PoolBut.moved (h : s.PoolBut E) (moved : ∀ p, (s.port p).Moved (t.port p)) (records : ∀ b, (s.buf b).Keeps (t.buf b))
    (freeList : t.freeList = s.freeList) (claimWait : t.claimWait = s.claimWait) (channels : t.channels = s.channels) : t.PoolBut E := by
  have chan (c : ChanIx) : t.chan c = s.chan c := by rw [State.chan, State.chan, channels]
  exact
    { ports := fun q => (h.ports q).moved (moved q) (fun b => (records b).roles q) claimWait chan
      claims := claimWait ▸ h.claims
      records := fun b => (records b).rolesLawful (h.records b)
      channels := fun c => by
        rw [chan]
        exact h.channels c
      frees := freeList ▸ h.frees
      linked := fun b off =>
        ⟨(h.linked b off).toQueued.congr (records b).channel (records b).pending (fun c => by rw [chan]) fun c _ => by rw [chan], by
          rw [freeList, (records b).state]
          exact (h.linked b off).free⟩
      bulk := h.bulk.congr (fun p => (moved p).touches) fun b => (records b).count }

theorem State.PoolBut.modMoved {f : PortState → PortState} (h : s.PoolBut E) (moved : (s.port p).Moved (f (s.port p))) :
    (s.modPort p f).PoolBut E :=
  h.moved (fun q => by
    by_cases same : q = p
    · rw [same, port_modPort_same]
      exact moved
    · rw [port_modPort_other s same]
      exact moved_of_engine (h.ports q).control.engine rfl rfl rfl) (fun b => keeps_refl _) rfl rfl rfl

/-! ## Bus accesses and bank grants -/

theorem advances_touches {m m' : Bulk} (h : m.Advances m') : m'.touches = m.touches := by
  rw [Bulk.touches, Bulk.touches, h.destination, h.source]

/-- A mover that goes on, or stops, is beside the pool. -/
theorem moved_of_advances {x y : PortState} {f : Bulk → Bulk} (lawful : x.engine.Lawful) (advances : ∀ m : Bulk, m.Advances (f m))
    (engine : y.engine = { x.engine with bulk := x.engine.bulk.map f })
    (windowA : y.windowA = x.windowA := by rfl) (windowB : y.windowB = x.windowB := by rfl)
    (teardown : y.teardown = x.teardown := by rfl) (session : y.session.state = x.session.state := by rfl)
    (charge : y.charge = x.charge := by rfl) (quota : y.quota = x.quota := by rfl) : x.Moved y :=
  { windowA, windowB, teardown, session, charge, quota
    engine := by rw [engine]; exact (Engine.Moves.mover _ f).lawful lawful
    waiting := by rw [engine]
    fenced := by rw [engine]; exact id
    request := by rw [engine]; exact fun r hr => .inl hr
    touches := by
      rw [engine, Option.map_map]
      exact congrArg (fun g => x.engine.bulk.map g) (funext fun m => advances_touches (advances m))
    mover := by
      rw [engine]
      intro m' hm moving clear
      obtain ⟨m, before, rfl⟩ := Option.map_eq_some_iff.1 hm
      obtain ⟨moving', clear'⟩ := (advances m).runs moving clear
      exact ⟨m, before, moving', clear', (advances m).destination, (advances m).source⟩ }

theorem idle_no_mover {e : Engine} (h : e.Lawful) (idle : e.state = .idle) : e.bulk = none :=
  (h.not_busy (by rw [idle]; exact nofun)).1

/-- A CANCEL stops a wait's timer, marks a mover, or does nothing (R33, R34). -/
theorem cancelled_cases (e : Engine) : e.cancelled = e ∨ e.cancelled = { e with cancelMarker := true } ∨
    e.cancelled = { e with bulk := e.bulk.map fun m => { m with abort := true } } := by
  unfold Engine.cancelled
  split
  · exact .inl rfl
  · split
    · exact .inr (.inl rfl)
    · exact .inl rfl
  · exact .inr (.inr rfl)

/-- A bus access, or a bank grant, leaves its port beside the pool. -/
theorem PortState.BusBeside.moved {x y : PortState} (h : x.BusBeside y) (lawful : x.engine.Lawful) : x.Moved y := by
  obtain ⟨_, _, session, windowA, windowB, teardown, charge, quota, moves⟩ := h
  generalize hy : y.engine = e at moves
  cases moves with
  | same =>
    exact moved_of_engine (hy ▸ lawful) (by rw [hy]) (by rw [hy]) (by rw [hy]) windowA windowB teardown session charge quota
  | staged opd =>
    exact moved_of_engine (by rw [hy]; exact (Engine.Moves.staged _ opd).lawful lawful) (by rw [hy]) (by rw [hy]) (by rw [hy]) windowA
      windowB teardown session charge quota
  | taken word idle code admitted =>
    exact
      { windowA, windowB, teardown, session, charge, quota
        engine := by rw [hy]; exact (Engine.Moves.taken _ word idle).lawful lawful
        waiting := by rw [hy, idle]; exact ⟨nofun, nofun⟩
        fenced := fun ⟨busy, _⟩ => nomatch busy.symm.trans idle
        request := by
          rw [hy]
          intro r hr
          rw [Engine.taking, code] at hr
          obtain rfl := Option.some.inj hr
          exact .inr admitted
        touches := by rw [hy]; rfl
        mover := by rw [hy]; exact fun m hm moving clear => ⟨m, hm, moving, clear, rfl, rfl⟩ }
  | answered word result idle =>
    have none := idle_no_mover lawful idle
    exact
      { windowA, windowB, teardown, session, charge, quota
        engine := by rw [hy]; exact Engine.completed_lawful ..
        waiting := by rw [hy, idle]; exact ⟨nofun, nofun⟩
        fenced := fun ⟨busy, _⟩ => nomatch busy.symm.trans idle
        request := by rw [hy]; exact nofun
        touches := by rw [hy, none]; rfl
        mover := by rw [hy]; exact nofun }
  | cancelled =>
    have lawful' : y.engine.Lawful := by rw [hy]; exact (Engine.Moves.cancelled _).lawful lawful
    rcases cancelled_cases x.engine with same | marked | aborts
    · have same := hy.trans same
      exact moved_of_engine lawful' (by rw [same]) (by rw [same]) (by rw [same]) windowA windowB teardown session charge quota
    · have marked := hy.trans marked
      exact moved_of_engine lawful' (by rw [marked]) (by rw [marked]) (by rw [marked]) windowA windowB teardown session charge quota
    · exact moved_of_advances (f := fun m => { m with abort := true }) lawful (fun m => { runs := fun _ => nofun }) (hy.trans aborts)
        windowA windowB teardown session charge quota
  | mover advances => exact moved_of_advances lawful advances hy windowA windowB teardown session charge quota

theorem pool_bus (p : Port) : BusClosed p (State.PoolBut []) where
  port beside h := h.modMoved (beside.moved (h.ports p).control.engine)
  place _ h := h.place ..

theorem pool_bank (p : Port) : BankClosed p (State.PoolBut []) where
  toBusClosed := pool_bus p
  bytes _ _ _ h := h.congr rfl rfl rfl rfl fun _ => alike_refl _
  occupied _ h := h.congr rfl rfl rfl rfl fun _ => alike_refl _
  freed {s r} _ _ h := by
    have bank : (s.modArbiter r.bank fun a => { a with current := none }).PoolBut [] := h.congr rfl rfl rfl rfl fun _ => alike_refl _
    exact bank.modAlike fun _ => {}

/-! ## What follows each command by itself (R113, R122) -/

theorem readMark_advances (m : Bulk) : m.Advances (if m.phase = .moving && m.abort then m.stop .aborted else m) := by
  split
  · exact stop_advances ..
  · exact { runs := fun moving clear => ⟨moving, clear⟩ }

theorem present_moved {x : PortState} (lawful : x.engine.Lawful) : x.Moved x.present := by
  unfold PortState.present
  split
  · exact moved_of_engine lawful rfl rfl rfl
  · split
    · exact moved_of_engine lawful rfl rfl rfl
    · exact moved_of_advances lawful readMark_advances rfl

theorem State.PoolBut.settle (h : s.PoolBut E) : s.settle.PoolBut E := by
  refine h.moved (fun p => ?_) (fun b => ?_) (settle_freeList s) (settle_claimWait s) (settle_channels s)
  · rcases settle_port_cases s p with same | same
    · rw [same]
      exact moved_of_engine (h.ports p).control.engine rfl rfl rfl
    · rw [same]
      exact present_moved (h.ports p).control.engine
  · rw [State.buf, State.buf, settle_buffers]
    exact keeps_refl _

/-! ## Ticks (R67, R76, R128, R159) -/

theorem tickTimer_moved {x : PortState} (lawful : x.engine.Lawful) : x.Moved x.tickTimer := by
  have engine := tickTimer_lawful lawful
  rcases tickTimer_frame x with same | ⟨_, timer, ticked⟩
  · rw [same]
    exact moved_of_engine lawful rfl rfl rfl
  · rw [ticked] at engine ⊢
    exact moved_of_engine engine rfl rfl rfl

theorem State.PoolBut.millisecond (h : s.PoolBut E) : s.millisecond.PoolBut E := by
  refine h.moved (fun p => ?_) (fun b => ?_) rfl rfl rfl
  · rw [millisecond_port]
    exact tickTimer_moved (h.ports p).control.engine
  · have record : s.millisecond.buf b = s.tickRoles (s.buf b) := vector_get_map ..
    rw [record]
    exact keeps_of_leases _ _ _ (tickRole_port s) (tickRole_port s)

theorem State.PoolBut.intervalExpiry (h : s.PoolBut E) : s.intervalExpiry.PoolBut E := by
  have expired : ({ s with refresh := s.refresh.map RefreshBank.expire } : State).PoolBut E := h.congr rfl rfl rfl rfl fun _ => alike_refl _
  have told (l : List BankIx) : ∀ t : State, t.PoolBut E →
      (l.foldl (fun t k => t.placeAll t.attachedPorts (mkRecord .refreshMissed k.val 0)) t).PoolBut E := by
    induction l with
    | nil => exact fun _ ht => ht
    | cons k l ih => exact fun t ht => ih _ (ht.placeAll ..)
  exact told _ _ expired

theorem State.PoolBut.tickInterval (h : s.PoolBut E) : s.tickInterval.PoolBut E := by
  unfold State.tickInterval
  split
  · exact State.PoolBut.intervalExpiry (h.congr rfl rfl rfl rfl fun _ => alike_refl _)
  · exact h.congr rfl rfl rfl rfl fun _ => alike_refl _

theorem State.PoolBut.microsecond (h : s.PoolBut E) : s.microsecond.PoolBut E := by
  have aged : ({ s with usDivider := 0 } : State).ageRows.PoolBut E := h.congr rfl rfl rfl rfl fun _ => alike_refl _
  have counted := aged.tickInterval
  exact tickMs_keeps (State.PoolBut.millisecond (counted.congr rfl rfl rfl rfl fun _ => alike_refl _)) fun _ =>
    counted.congr rfl rfl rfl rfl fun _ => alike_refl _

theorem State.PoolBut.tickWhen (h : s.PoolBut E) (due : Bool) : (s.tickWhen due).PoolBut E := by
  unfold State.tickWhen
  split
  · exact h.microsecond
  · exact h

theorem State.PoolBut.clkCycle (h : s.PoolBut E) : s.clkCycle.PoolBut E := by
  unfold State.clkCycle
  split
  · exact h
  · split
    · exact h.microsecond
    · exact h.congr rfl rfl rfl rfl fun _ => alike_refl _

/-! ## Refresh and reset (R126, R129, R167) -/

theorem State.PoolBut.refreshGranted (h : s.PoolBut E) (k : BankIx) : (s.refreshGranted k).PoolBut E := by
  rw [refreshGranted_frame]
  exact h.congr rfl rfl rfl rfl fun _ => alike_refl _

theorem State.PoolBut.refreshDone (h : s.PoolBut E) (k : BankIx) : (s.refreshDone k).PoolBut E := by
  rw [refreshDone_frame]
  exact h.congr rfl rfl rfl rfl fun _ => alike_refl _

theorem resetFalls_poolBut (s : State) : s.resetFalls.PoolBut [] := by
  refine (poolBut_nil.2 reset_poolLawful).congr (by rw [State.resetFalls]) (by rw [State.resetFalls]) (by rw [State.resetFalls])
    (by rw [State.resetFalls]) fun p => ?_
  rw [resetFalls_port, reset_port]
  exact {}

end

end Sys2Proof.Machine
end

section
/-! Every command keeps the pool's laws: O59 and O60 (R10, R12, and all the laws of the pool). -/

namespace Sys2Proof.Machine

section
variable {s t : State} {p q : Port} {b : BufIx} {c : Instr} {code : ReqCode} {op : TableOp} {r : Requester} {m : ReqMoment}

/-! ## What a granted operation finds -/

theorem offer_of_grants (h : s.grants (.re p) op = true) : s.sessionState p ≠ .resetting ∧ (s.port p).engine.offer = some op := by
  have up := up_of_grants h
  exact ⟨up, (offer_re_running up).symm.trans (grants_offer h).2⟩

/-- What a BUSY engine offers (R21). -/
theorem busy_offers {e : Engine} (busy : e.state = .busy) (offer : e.offer = some op) :
    (op = .endStep ∧ e.bulk.isSome = true) ∨ e.bulk = none ∧
      ((op = .zeroFillStart ∧ e.claimed.isSome = true) ∨ (op = .closeStep ∧ e.close.isSome = true) ∨ ∃ c, op = .request c) := by
  cases bulk : e.bulk with
  | some m =>
    rw [Engine.offer_moving busy bulk, Option.ite_none_right_eq_some] at offer
    exact .inl ⟨(Option.some.inj offer.2).symm, rfl⟩
  | none =>
    rw [Engine.offer_busy busy bulk] at offer
    refine .inr ⟨rfl, ?_⟩
    split at offer
    · rename_i claimed
      exact .inl ⟨(Option.some.inj offer).symm, claimed⟩
    · split at offer
      · rename_i close
        exact .inr (.inl ⟨(Option.some.inj offer).symm, close⟩)
      · obtain ⟨r, _, request⟩ := Option.bind_eq_some_iff.1 offer
        rw [Option.ite_none_right_eq_some] at request
        exact .inr (.inr ⟨_, (Option.some.inj request.2).symm⟩)

/-- An engine that offers the cancel or the timeout operation waits (R34, R70). -/
theorem waiting_of_grants (h : s.grants (.re p) op = true) (ends : op = .cancel ∨ op = .timeout) :
    (s.port p).engine.state = .waiting := by
  obtain ⟨_, offer⟩ := offer_of_grants h
  cases state : (s.port p).engine.state with
  | waiting => rfl
  | idle =>
    rw [Engine.offer, state] at offer
    exact nomatch offer
  | busy =>
    rcases busy_offers state offer with ⟨rfl, _⟩ | ⟨_, ⟨rfl, _⟩ | ⟨rfl, _⟩ | ⟨_, rfl⟩⟩
    all_goals exact ends.elim nofun nofun

/-- An engine that offers a zero fill's start, or a close step, runs its request in an ACTIVE session. -/
theorem runs_of_grants (control : s.ControlLawful p) (h : s.grants (.re p) op = true) (which : op = .zeroFillStart ∨ op = .closeStep) :
    s.Runs p := by
  obtain ⟨up, offer⟩ := offer_of_grants h
  have busy := grants_busy h (by rcases which with rfl | rfl <;> exact nofun) (by rcases which with rfl | rfl <;> exact nofun)
  obtain ⟨bulk, request⟩ : (s.port p).engine.bulk = none ∧ ∃ r ∈ (s.port p).engine.request, r.code ≠ .attach := by
    rcases busy_offers busy offer with ⟨rfl, _⟩ | ⟨bulk, ⟨rfl, claimed⟩ | ⟨rfl, close⟩ | ⟨_, rfl⟩⟩
    · exact which.elim nofun nofun
    · obtain ⟨_, r, hr, code, _⟩ := control.engine.claimed claimed
      exact ⟨bulk, r, hr, by rw [code]; exact nofun⟩
    · obtain ⟨_, r, hr, code⟩ := control.engine.close close
      exact ⟨bulk, r, hr, by rw [code]; exact nofun⟩
    · exact which.elim nofun nofun
  obtain ⟨r, hr, other⟩ := request
  exact ⟨open_of_not_resetting control (not_detached_of_admits (control.session.admitted up r hr) other) up, busy, bulk⟩

/-- A unit that offers its fence step is in phase FENCE. -/
theorem offers_fence (h : s.offer (.tu p) = some .fence) : (s.port p).teardown.phase = .fence := by
  change (s.port p).teardownOffer = some .fence at h
  unfold PortState.teardownOffer at h
  cases phase : (s.port p).teardown.phase <;> rw [phase] at h <;> simp only at h
  case final =>
    split at h
    · split at h <;> exact nomatch h
    · exact nomatch h
  case roles => split at h <;> exact nomatch h
  case channels => split at h <;> exact nomatch h
  all_goals exact nomatch h

/-- A unit that offers its final step is in phase FINAL and owes no end step. -/
theorem offers_final (h : s.offer (.tu p) = some .final) :
    (s.port p).teardown.phase = .final ∧ (s.port p).teardown.endOwed = false := by
  change (s.port p).teardownOffer = some .final at h
  unfold PortState.teardownOffer at h
  cases phase : (s.port p).teardown.phase <;> rw [phase] at h <;> simp only at h
  case final =>
    split at h
    · split at h <;> exact nomatch h
    · rename_i owed
      exact ⟨rfl, Bool.eq_false_iff.2 owed⟩
  case roles => split at h <;> exact nomatch h
  case channels => split at h <;> exact nomatch h
  all_goals exact nomatch h

/-! ## Table operations and block requests -/

theorem State.PoolBut.tableOp (h : s.PoolBut []) {body : Work → Work}
    (hb : s.grants r op = true → (s.served r).PoolBut [] → (body (Work.start (s.served r))).finish.PoolBut []) :
    (s.tableOp r op body).PoolBut [] := by
  unfold State.tableOp
  split
  · rename_i granted
    exact hb granted (h.served r)
  · exact h

/-- A request's REQ write, or its table operation. -/
theorem State.PoolBut.request (h : s.PoolBut []) (other : code ≠ .attach) {body : Work → Work}
    (hb : (s.served (.re p)).PoolBut [] → (s.served (.re p)).Requested p code →
      (body (Work.start (s.served (.re p)))).state.PoolBut []) : (s.atMoment p code m (s.tableRequest p code body)).PoolBut [] := by
  cases m with
  | written zero head => exact (pool_bus p).reqWrite _ _ h
  | carriedOut =>
    refine h.tableOp fun granted served => (hb served ?_).finish
    obtain ⟨runs, ready, admitted, up⟩ := requested_of_grants (h.ports p).control granted other
    exact ⟨⟨runs.op, runs.state, runs.bulk⟩, ready, admitted, up⟩

/-- A request's REQ write, or what another block carries out. -/
theorem State.PoolBut.blockRequest (h : s.PoolBut []) (quiet : ¬(code = .fill ∨ code = .copy ∨ code = .claim)) {body : Work → Work}
    (hb : s.Handed p code → (body (Work.start s)).state.PoolBut []) : (s.atMoment p code m (s.blockRequest p code body)).PoolBut [] := by
  cases m with
  | written zero head => exact (pool_bus p).reqWrite _ _ h
  | carriedOut =>
    show (s.blockRequest p code body).PoolBut []
    unfold State.blockRequest
    split
    · rename_i ready
      exact (hb (handed_of_blockReady (h.ports p).control ready quiet)).finish
    · exact h

/-- Such a request of a port that is not DETACHED. -/
theorem State.PoolBut.blockRuns (h : s.PoolBut []) (quiet : ¬(code = .fill ∨ code = .copy ∨ code = .claim)) (other : code ≠ .attach)
    {body : Work → Work} (hb : s.Runs p → (body (Work.start s)).state.PoolBut []) :
    (s.atMoment p code m (s.blockRequest p code body)).PoolBut [] :=
  h.blockRequest quiet fun handed => hb (handed.runs (h.ports p).control other)

theorem State.PoolBut.runRoleStep (h : s.PoolBut []) (p : Port) : (s.runRoleStep p).PoolBut [] :=
  h.tableOp fun granted served => served.roleStep (offers_role (grants_offer granted).2).1

theorem State.PoolBut.runChannelStep (h : s.PoolBut []) (p : Port) : (s.runChannelStep p).PoolBut [] :=
  h.tableOp fun granted served => served.channelStep (offers_channel (grants_offer granted).2).1

theorem State.PoolBut.runCloseStep (h : s.PoolBut []) (p : Port) : (s.tableOp (.re p) .closeStep fun w => w.closeStep p).PoolBut [] :=
  h.tableOp fun granted served => by
    obtain ⟨op, state, bulk⟩ := runs_of_grants (h.ports p).control granted (.inr rfl)
    exact (State.PoolBut.closeStep (w := Work.start (s.served (.re p))) served ⟨op, state, bulk⟩).finish

theorem State.PoolBut.runEndWait (h : s.PoolBut []) (p : Port) (e : ResultCode) (ends : op = .cancel ∨ op = .timeout) :
    (s.tableOp (.re p) op fun w => w.endWait p e).PoolBut [] :=
  h.tableOp fun granted served => by
    have waiting := waiting_of_grants granted ends
    exact (State.PoolBut.endWait (w := Work.start (s.served (.re p))) served waiting e).finish

theorem State.PoolBut.runFinalStep (h : s.PoolBut []) (p : Port) :
    (s.tableOp (.tu p) .final fun w => w.map fun s => s.finishTeardown p).PoolBut [] :=
  h.tableOp fun granted served => by
    obtain ⟨phase, owed⟩ := offers_final (grants_offer granted).2
    have teardown := (h.ports p).control.teardown
    have last : (s.served (.tu p)).TakenApart p :=
      ⟨show (s.port p).teardown.phase.afterRoles = true by rw [phase]; rfl, teardown.noChannel phase, owed⟩
    exact (served.finishTeardown last : ((Work.start (s.served (.tu p))).map fun s => s.finishTeardown p).state.PoolBut []).finish

theorem State.PoolBut.finalStep (h : s.PoolBut []) (p : Port) :
    (match (s.port p).teardown.phase with
      | .roles => if s.rolesOver p && s.channelsOver p then s.runRoleStep p else s
      | .channels => if s.channelsOver p then s.runChannelStep p else s
      | .final => s.tableOp (.tu p) .final fun w => w.map fun s => s.finishTeardown p
      | .idle | .fence => s).PoolBut [] := by
  split
  · split
    · exact h.runRoleStep p
    · exact h
  · split
    · exact h.runChannelStep p
    · exact h
  · exact h.runFinalStep p
  · exact h
  · exact h

/-! ## Every command -/

/-- A command keeps the pool's laws. -/
theorem State.PoolBut.exec (h : s.PoolBut []) (he : exec c s = .next t) : t.PoolBut [] := by
  have ends {u : State} (meaning : Machine.exec c s = done u) (hu : u.PoolBut []) : t.PoolBut [] := by
    rw [next_of_done (meaning.symm.trans he)]
    exact hu.settle
  have bus {p : Port} (access : c.busPort = some p) : t.PoolBut [] := by
    obtain ⟨u, settled, laws⟩ := (pool_bus p).exec_bus (fun ht => ht.modAlike fun _ => {}) access h he
    exact settled ▸ laws.settle
  have bank {p : Port} (access : AtBankOf p c) : t.PoolBut [] := by
    obtain ⟨u, settled, laws⟩ := (pool_bank p).exec_bank access h he
    exact settled ▸ laws.settle
  cases c with
  | claim p m => exact ends rfl (h.request (by decide) fun hs req => hs.claim (w := Work.start _) req)
  | release p m => exact ends rfl (h.request (by decide) fun hs req => hs.release (w := Work.start _) req.runs)
  | adopt p m => exact ends rfl (h.request (by decide) fun hs req => hs.adopt (w := Work.start _) req.runs)
  | renew p m => exact ends rfl (h.request (by decide) fun hs req => hs.renew (w := Work.start _) req.runs)
  | query p m => exact ends rfl (h.request (by decide) fun hs req => hs.query (w := Work.start _) req.runs)
  | openChannel p m => exact ends rfl (h.request (by decide) fun hs req => hs.openChannel (w := Work.start _) req.runs)
  | post p m => exact ends rfl (h.request (by decide) fun hs req => hs.post req.runs)
  | take p m => exact ends rfl (h.request (by decide) fun hs req => hs.take (w := Work.start _) req)
  | channelStatus p m => exact ends rfl (h.request (by decide) fun hs req => hs.channelStatus (w := Work.start _) req.runs)
  | closeChannel p m => exact ends rfl (h.request (by decide) fun hs req => hs.closeChannel (w := Work.start _) req)
  | map p m => exact ends rfl (h.request (by decide) fun hs req => hs.map' (w := Work.start _) req.runs)
  | fill p m => exact ends rfl (h.request (by decide) fun hs req => hs.fill (w := Work.start _) req)
  | copy p m => exact ends rfl (h.request (by decide) fun hs req => hs.copy (w := Work.start _) req)
  | setQuota p m => exact ends rfl (h.request (by decide) fun hs req => hs.setQuota (w := Work.start _) req.runs)
  | setLease p m => exact ends rfl (h.blockRuns (by decide) (by decide) fun runs => h.setLease (w := Work.start _) runs)
  | unmap p m => exact ends rfl (h.blockRuns (by decide) (by decide) fun runs => h.unmap (w := Work.start _) runs)
  | setParam p m => exact ends rfl (h.blockRuns (by decide) (by decide) fun runs => h.setParam (w := Work.start _) runs)
  | clearStatus p m => exact ends rfl (h.blockRuns (by decide) (by decide) fun runs => h.clearStatus (w := Work.start _) runs)
  | attach p m => exact ends rfl (h.blockRequest (by decide) fun handed => h.changeSession (w := Work.start _) handed nofun nofun)
  | quiesce p m => exact ends rfl (h.blockRequest (by decide) fun handed => h.changeSession (w := Work.start _) handed nofun nofun)
  | resume p m => exact ends rfl (h.blockRequest (by decide) fun handed => h.changeSession (w := Work.start _) handed nofun nofun)
  | detach p m => exact ends rfl (h.blockRequest (by decide) fun _ => h.startTeardown p)
  | cancelOperation p => exact ends rfl (h.runEndWait p _ (.inl rfl))
  | timeoutOperation p => exact ends rfl (h.runEndWait p _ (.inr rfl))
  | closeStep p =>
    refine ends rfl ?_
    split
    · exact h
    · exact h.runCloseStep p
  | closeLastStep p =>
    refine ends rfl ?_
    split
    · exact h.runCloseStep p
    · exact h
  | zeroFillStart p =>
    refine ends rfl (h.tableOp fun granted served => ?_)
    obtain ⟨op, state, bulk⟩ := runs_of_grants (h.ports p).control granted (.inl rfl)
    have up := up_of_grants granted
    exact (served.zeroFillStart (w := Work.start _) ⟨op, state, bulk⟩ up).finish
  | endStep p =>
    refine ends rfl ?_
    split
    · exact h.tableOp fun _ served => (served.endStepTeardown (w := Work.start _)).finish
    · refine h.tableOp fun granted served => ?_
      have up := up_of_grants granted
      exact (served.endStepEngine (w := Work.start _) up).finish
  | expiryOperation => exact ends rfl (h.tableOp fun _ served => (served.expiry (w := Work.start _)).finish)
  | fenceStep p =>
    refine ends rfl (h.tableOp fun granted served => ?_)
    have fenced := served.fence (p := p) (offers_fence (grants_offer granted).2)
    exact (fenced : ((Work.start (s.served (.tu p))).map fun s => s.fence p).state.PoolBut []).finish
  | roleStep p => exact ends rfl (h.runRoleStep p)
  | channelStep p =>
    refine ends rfl ?_
    split
    · exact h.runRoleStep p
    · exact h.runChannelStep p
  | finalStep p => exact ends rfl (h.finalStep p)
  | cancel | badRequest | refused | windowRead | streamDataRead | note0Pop | windowWrite | streamDataWrite | streamSettingsWrite
  | pstatWrite | pcfgWrite | registerWrite => exact bus rfl
  | windowReadGrant p m => exact bank (p := p) ⟨m, .inl rfl⟩
  | windowWriteGrant p m => exact bank (p := p) ⟨m, .inr (.inl rfl)⟩
  | streamReadGrant p m => exact bank (p := p) ⟨m, .inr (.inr (.inl rfl))⟩
  | streamWriteGrant p m => exact bank (p := p) ⟨m, .inr (.inr (.inr (.inl rfl)))⟩
  | fillBurst p m => exact bank (p := p) ⟨m, .inr (.inr (.inr (.inr (.inl rfl))))⟩
  | copyBurstRead p m => exact bank (p := p) ⟨m, .inr (.inr (.inr (.inr (.inr (.inl rfl)))))⟩
  | copyBurstWrite p m => exact bank (p := p) ⟨m, .inr (.inr (.inr (.inr (.inr (.inr rfl)))))⟩
  | usTick | msTick | intervalExpiry | waitTimerExpiry | leaseRunOut => exact ends rfl (h.tickWhen _)
  | rowRefresh k m =>
    cases m with
    | granted => exact ends rfl (h.refreshGranted k)
    | carriedOut => exact ends rfl (h.refreshDone k)
  | prstFalling p =>
    refine ends rfl ?_
    split
    · exact h
    · exact h.prstFalls p
  | prstRising p => exact ends rfl (h.modAlike (f := fun x => { x with prstLow := false }) fun _ => {})
  | resetFalling => exact ends rfl (resetFalls_poolBut s)
  | resetRising supen sup =>
    refine ends rfl ?_
    split
    · exact h.congr rfl rfl rfl rfl fun _ => alike_refl _
    · exact h
  | powerOn => exact ends rfl (h.congr rfl rfl rfl rfl fun _ => alike_refl _)

/-- A step keeps the pool's laws. -/
theorem State.PoolLawful.step (h : s.PoolLawful) (he : step s = .next t) : t.PoolLawful := by
  have laws := poolBut_nil.2 h
  refine poolBut_nil.1 ?_
  unfold Machine.step at he
  split at he
  · rename_i rest _
    have taken : ({ s with pending := rest } : State).PoolBut [] := laws.congr rfl rfl rfl rfl fun _ => alike_refl _
    exact taken.exec he
  · rw [next_of_done he]
    exact laws.clkCycle.settle

end

/-- Settles O59: the charges are among the pool's laws, which a step keeps. -/
theorem stepKeepsCharges : Obligations.StepKeepsCharges := fun _ _ h he => (h.step he).charges

/-- Settles O60: the laws of the pool together, and those of the queues, counters, array, expiry list and banks. -/
theorem stepKeepsLawful : Obligations.StepKeepsLawful := fun s t h he =>
  { notes := stepKeepsNotes.1 s t h.notes he
    quiet := stepKeepsNotes.2 s t h.quiet he
    counters := stepKeepsCounters s t h.counters he
    array := stepKeepsArrayForm s t h.array he
    expiry := stepKeepsUnits.1 s t h.expiry he
    paths := stepKeepsUnits.2.1 s t h.paths he
    pool := h.pool.step he }

end Sys2Proof.Machine
end

section
/-! How a buffer's generation steps, one operation at a time (R3, R6, R8): the buffer rests or is renewed, and what may come before and
after a renewal in one operation. -/

namespace Sys2Proof.Machine

section
variable {s t u : State} {w : Work} {p q : Port} {b d : BufIx} {c : ChanIx}

/-! ## What an operation does to a buffer's generation -/

/-- The buffer keeps its generation, and stands on the Free List only if it stood there. -/
structure State.Rests (s t : State) (b : BufIx) : Prop where
  generation : (t.buf b).generation = (s.buf b).generation
  free : b ∈ t.freeList → b ∈ s.freeList

/-- The buffer enters FREE (R8): its generation rises, and it joins the Free List or goes to a claim waiter. -/
structure State.Renews (s t : State) (b : BufIx) : Prop where
  generation : (t.buf b).generation = (s.buf b).generation + 1
  used : b ∉ s.freeList
  placed : b ∈ t.freeList ∨ ∃ q ∈ s.claimWait, (t.buf b).heldBy q = true

def State.Ages (s t : State) (b : BufIx) : Prop := s.Rests t b ∨ s.Renews t b

/-- What may come before a renewal: no port begins to wait for a buffer. -/
structure State.Leads (s t : State) (b : BufIx) : Prop where
  generation : (t.buf b).generation = (s.buf b).generation
  free : b ∈ t.freeList ↔ b ∈ s.freeList
  claims : ∀ q ∈ t.claimWait, q ∈ s.claimWait

/-- What may come after a renewal: a holder keeps its buffer. -/
structure State.Trails (s t : State) (b : BufIx) : Prop where
  generation : (t.buf b).generation = (s.buf b).generation
  free : b ∈ t.freeList ↔ b ∈ s.freeList
  held : ∀ q, (s.buf b).heldBy q = true → (t.buf b).heldBy q = true

theorem rests_of_same (buffers : t.buffers = s.buffers) (freeList : t.freeList = s.freeList) : s.Rests t b where
  generation := by rw [State.buf, State.buf, buffers]
  free := by rw [freeList]; exact id

theorem leads_of_same (buffers : t.buffers = s.buffers) (freeList : t.freeList = s.freeList) (claimWait : t.claimWait = s.claimWait) :
    s.Leads t b where
  generation := by rw [State.buf, State.buf, buffers]
  free := by rw [freeList]
  claims := by rw [claimWait]; exact fun _ => id

theorem trails_of_same (buffers : t.buffers = s.buffers) (freeList : t.freeList = s.freeList) : s.Trails t b where
  generation := by rw [State.buf, State.buf, buffers]
  free := by rw [freeList]
  held := by rw [State.buf, State.buf, buffers]; exact fun _ => id

theorem rests_refl (s : State) (b : BufIx) : s.Rests s b := ⟨rfl, id⟩

theorem leads_refl (s : State) (b : BufIx) : s.Leads s b := leads_of_same rfl rfl rfl

theorem State.Leads.rests (h : s.Leads t b) : s.Rests t b := ⟨h.generation, h.free.1⟩

theorem State.Trails.rests (h : s.Trails t b) : s.Rests t b := ⟨h.generation, h.free.1⟩

theorem State.Rests.trans (h : s.Rests t b) (g : t.Rests u b) : s.Rests u b := ⟨g.generation.trans h.generation, fun mem => h.free (g.free mem)⟩

theorem State.Leads.trans (h : s.Leads t b) (g : t.Leads u b) : s.Leads u b where
  generation := g.generation.trans h.generation
  free := g.free.trans h.free
  claims q mem := h.claims q (g.claims q mem)

theorem State.Leads.ages (h : s.Leads t b) (g : t.Ages u b) : s.Ages u b := by
  rcases g with rests | renews
  · exact .inl (h.rests.trans rests)
  · refine .inr ⟨by rw [renews.generation, h.generation], fun mem => renews.used (h.free.2 mem), ?_⟩
    exact renews.placed.imp_right fun ⟨q, waits, held⟩ => ⟨q, h.claims q waits, held⟩

theorem State.Ages.trails (h : s.Ages t b) (g : t.Trails u b) : s.Ages u b := by
  rcases h with rests | renews
  · exact .inl (rests.trans g.rests)
  · refine .inr ⟨g.generation.trans renews.generation, renews.used, ?_⟩
    exact renews.placed.imp g.free.2 fun ⟨q, waits, held⟩ => ⟨q, waits, g.held q held⟩

theorem State.Leaves.trails (h : s.Leaves t b) : s.Trails t b where
  generation := by rw [h.record]
  free := h.free
  held := by rw [h.record]; exact fun _ => id

theorem State.Leaves.leads (h : s.Leaves t b) (claims : ∀ q ∈ t.claimWait, q ∈ s.claimWait) : s.Leads t b where
  generation := by rw [h.record]
  free := h.free
  claims := claims

/-- A change of one record that keeps its generation. -/
theorem leads_modBuf (s : State) {f : BufRec → BufRec} (same : (f (s.buf d)).generation = (s.buf d).generation) (b : BufIx) :
    s.Leads (s.modBuf d f) b where
  generation := by
    by_cases here : b = d
    · rw [here, buf_modBuf_same, same]
    · rw [buf_modBuf_other _ here]
  free := Iff.rfl
  claims _ := id

/-- A change of records that keeps their generations. -/
theorem leads_foldl_modBuf {f : BufRec → BufRec} (same : ∀ r, (f r).generation = r.generation) (l : List BufIx) (s : State) (b : BufIx) :
    s.Leads (l.foldl (fun t d => t.modBuf d f) s) b := by
  induction l generalizing s with
  | nil => exact leads_refl s b
  | cons d l ih => exact (leads_modBuf s (same _) b).trans (ih _)

theorem finish_trails (w : Work) (b : BufIx) : w.state.Trails w.finish b := trails_of_same (finish_buffers ..) (finish_freeList ..)

theorem State.Ages.finish (h : s.Ages w.state b) : s.Ages w.finish b := h.trails (finish_trails w b)

theorem complete_trails (w : Work) (p : Port) (c : ResultCode) (r : Vector Word 4) (long : Bool) (b : BufIx) :
    w.state.Trails (w.complete p c r long).state b := trails_of_same rfl rfl

theorem State.Ages.complete (h : s.Ages w.state b) (p : Port) (c : ResultCode) (r : Vector Word 4) (long : Bool) :
    s.Ages (w.complete p c r long).state b := h.trails (complete_trails ..)

/-- A refused request renews nothing. -/
theorem refuse_ages (w : Work) (p : Port) (c : ResultCode) (b : BufIx) : w.state.Ages (w.refuse p c).state b :=
  .inl (complete_trails ..).rests

/-! ## Buffers that enter FREE (R8) -/

theorem handedTo_heldBy (r : BufRec) (p : Port) (v : Word) : (r.handedTo p v).heldBy p = true :=
  ((handedTo_heldNow r p v).heldBy p).trans (decide_eq_true rfl)

theorem serveClaim_generation (w : Work) (q : Port) (b : BufIx) :
    ((w.serveClaim q b).state.buf b).generation = (w.state.buf b).generation := by
  obtain ⟨v, buf⟩ := serveClaim_buf w q b
  rw [buf]
  rfl

theorem serveClaim_heldBy (w : Work) (q : Port) (b : BufIx) : ((w.serveClaim q b).state.buf b).heldBy q = true := by
  obtain ⟨v, buf⟩ := serveClaim_buf w q b
  rw [buf]
  exact handedTo_heldBy ..

theorem enterFree_renews (used : b ∉ w.state.freeList) : w.state.Renews (w.enterFree b).state b := by
  have freed : (w.map fun s => s.modBuf b BufRec.freed).state.buf b = (w.state.buf b).freed := buf_modBuf_same ..
  unfold Work.enterFree
  simp only
  split
  · rename_i q found
    refine ⟨?_, used, .inr ⟨q, List.mem_of_find?_eq_some found, serveClaim_heldBy ..⟩⟩
    rw [serveClaim_generation, freed]
    rfl
  · refine ⟨?_, used, .inl (List.mem_append_right _ (List.mem_singleton_self b))⟩
    rw [map_state, buf_setFreeList, freed]
    rfl

/-- A buffer that is not on the Free List enters FREE. -/
theorem enterFree_ages (used : d ∉ w.state.freeList) (b : BufIx) : w.state.Ages (w.enterFree d).state b := by
  by_cases same : b = d
  · subst same
    exact .inr (enterFree_renews used)
  · exact .inl (leaves_enterFree w same).trails.rests

theorem lastUse_ages (used : d ∉ w.state.freeList) (b : BufIx) : w.state.Ages (w.lastUse d).state b := by
  unfold Work.lastUse
  split
  · exact enterFree_ages used b
  · exact .inl (rests_refl ..)

theorem enterFree_claims (w : Work) (d : BufIx) : ∀ q ∈ (w.enterFree d).state.claimWait, q ∈ w.state.claimWait := by
  unfold Work.enterFree
  simp only
  split
  · rw [serveClaim_claimWait]
    exact fun q mem => List.mem_of_mem_erase mem
  · exact fun _ => id

theorem lastUse_claims (w : Work) (d : BufIx) : ∀ q ∈ (w.lastUse d).state.claimWait, q ∈ w.state.claimWait := by
  unfold Work.lastUse
  split
  · exact enterFree_claims w d
  · exact fun _ => id

/-- Distinct buffers that enter FREE, if they may, one after the other; `st` is the state of what the steps work on. -/
theorem foldl_ages {α : Type} {st : α → State} {step : α → BufIx → α}
    (leaves : ∀ x d e, e ≠ d → (st x).Leaves (st (step x d)) e) (claims : ∀ x d, ∀ q ∈ (st (step x d)).claimWait, q ∈ (st x).claimWait)
    (ages : ∀ x d, d ∉ (st x).freeList → ∀ e, (st x).Ages (st (step x d)) e) {l : List BufIx} (distinct : l.Nodup) {x : α}
    (used : ∀ d ∈ l, d ∉ (st x).freeList) (b : BufIx) : (st x).Ages (st (l.foldl step x)) b := by
  have beside {l : List BufIx} (off : b ∉ l) : ∀ x, (st x).Leaves (st (l.foldl step x)) b := by
    induction l with
    | nil => exact fun x => leaves_refl ..
    | cons d l ih => exact fun x => (leaves x d b (List.ne_of_not_mem_cons off)).trans (ih (List.not_mem_of_not_mem_cons off) _)
  induction l generalizing x with
  | nil => exact .inl (rests_refl ..)
  | cons d l ih =>
    obtain ⟨away, distinct⟩ := List.nodup_cons.1 distinct
    by_cases same : b = d
    · subst same
      exact (ages x b (used b List.mem_cons_self) b).trails (beside away _).trails
    · refine ((leaves x d b same).leads (claims x d)).ages (ih distinct fun e mem => ?_)
      rw [(leaves x d e fun same => away (same ▸ mem)).free]
      exact used e (List.mem_cons_of_mem d mem)

theorem enterFrees_ages {l : List BufIx} (distinct : l.Nodup) (used : ∀ d ∈ l, d ∉ w.state.freeList) (b : BufIx) :
    w.state.Ages (l.foldl Work.enterFree w).state b :=
  foldl_ages (st := Work.state) (fun x _ _ other => leaves_enterFree x other) enterFree_claims (fun _ _ => enterFree_ages) distinct used b

theorem lastUsed_ages (used : d ∉ s.freeList) (b : BufIx) : s.Ages (s.lastUsed d) b := by
  rw [lastUsed_eq]
  exact (lastUse_ages (w := Work.start s) used b).finish

theorem lastUsed_claims (s : State) (d : BufIx) : ∀ q ∈ (s.lastUsed d).claimWait, q ∈ s.claimWait := by
  rw [lastUsed_eq, finish_claimWait]
  exact lastUse_claims (Work.start s) d

theorem lastUses_ages {l : List BufIx} (distinct : l.Nodup) (used : ∀ d ∈ l, d ∉ s.freeList) (b : BufIx) :
    s.Ages (l.foldl State.lastUsed s) b :=
  foldl_ages (st := id) (fun x _ _ other => leaves_lastUsed x other) lastUsed_claims (fun _ _ => lastUsed_ages) distinct used b

end

end Sys2Proof.Machine
end

section
/-! How a buffer's generation steps in the service of waiters and in the table operations of the pool (R8, R9, R37 to R42, R59, R77 to R83). -/

namespace Sys2Proof.Machine

section
variable {s t u : State} {w : Work} {p q : Port} {b d : BufIx} {c : ChanIx}

/-! ## Service of waiters (R9, R59) -/

/-- What service at the end of an operation does to a buffer: it may go from the Free List to a port that waits for one. -/
structure State.Serves (s t : State) (b : BufIx) : Prop where
  generation : (t.buf b).generation = (s.buf b).generation
  free : b ∈ t.freeList → b ∈ s.freeList
  placed : b ∈ s.freeList → b ∈ t.freeList ∨ ∃ q ∈ s.claimWait, (t.buf b).heldBy q = true
  held : ∀ q, (s.buf b).heldBy q = true → (t.buf b).heldBy q = true
  claims : ∀ q ∈ t.claimWait, q ∈ s.claimWait

theorem State.Leads.serves (h : s.Leads t b) (held : ∀ q, (s.buf b).heldBy q = true → (t.buf b).heldBy q = true) : s.Serves t b :=
  ⟨h.generation, h.free.1, fun mem => .inl (h.free.2 mem), held, h.claims⟩

theorem serves_refl (s : State) (b : BufIx) : s.Serves s b := (leads_refl s b).serves fun _ => id

theorem State.Serves.trans (h : s.Serves t b) (g : t.Serves u b) : s.Serves u b where
  generation := g.generation.trans h.generation
  free mem := h.free (g.free mem)
  placed mem := by
    rcases h.placed mem with mem | ⟨q, waits, held⟩
    · exact (g.placed mem).imp_right fun ⟨q, waits, held⟩ => ⟨q, h.claims q waits, held⟩
    · exact .inr ⟨q, waits, g.held q held⟩
  held q held := g.held q (h.held q held)
  claims q mem := h.claims q (g.claims q mem)

/-- Service after a renewal. -/
theorem State.Ages.serves (h : s.Ages t b) (claims : ∀ q ∈ t.claimWait, q ∈ s.claimWait) (g : t.Serves u b) : s.Ages u b := by
  rcases h with rests | renews
  · exact .inl (rests.trans ⟨g.generation, g.free⟩)
  · refine .inr ⟨g.generation.trans renews.generation, renews.used, ?_⟩
    rcases renews.placed with mem | ⟨q, waits, held⟩
    · exact (g.placed mem).imp_right fun ⟨q, waits, held⟩ => ⟨q, claims q waits, held⟩
    · exact .inr ⟨q, waits, g.held q held⟩

theorem not_held_of_free (h : s.PoolBut []) (mem : b ∈ s.freeList) (q : Port) : (s.buf b).heldBy q = false :=
  (roleOf_of_unused ((state_free_iff _).1 ((h.linked b List.not_mem_nil).free.1 mem)).1 q).1

theorem serveTurn_serves (h : w.state.PoolBut []) (waits : q ∈ w.state.claimWait) (b : BufIx) : w.state.Serves (w.serveTurn q).state b := by
  unfold Work.serveTurn
  split
  · split
    · exact serves_refl ..
    · rename_i d rest list
      have claims (r : Port) (mem : r ∈ ((w.map fun s => s.setFreeList rest).serveClaim q d).state.claimWait) : r ∈ w.state.claimWait := by
        rw [serveClaim_claimWait] at mem
        exact List.mem_of_mem_erase mem
      by_cases same : b = d
      · subst same
        have mem : b ∈ w.state.freeList := by rw [list]; exact List.mem_cons_self
        refine ⟨serveClaim_generation .., fun _ => mem, fun _ => .inr ⟨q, waits, serveClaim_heldBy ..⟩, fun r held => ?_, claims⟩
        exact nomatch (not_held_of_free h mem r).symm.trans held
      · have taken : w.state.Leaves (w.map fun s => s.setFreeList rest).state b :=
          leaves_setFreeList _ (by rw [list, List.mem_cons, or_iff_right same])
        have leaves := taken.trans (leaves_serveClaim _ q same)
        exact (leaves.leads claims).serves leaves.trails.held
  · exact serves_refl ..

theorem serveTurns_serves {l : List Port} (h : w.state.PoolBut []) (distinct : l.Nodup) (waits : ∀ q ∈ l, q ∈ w.state.claimWait)
    (b : BufIx) : w.state.Serves (l.foldl Work.serveTurn w).state b := by
  induction l generalizing w with
  | nil => exact serves_refl ..
  | cons q l ih =>
    obtain ⟨away, distinct⟩ := List.nodup_cons.1 distinct
    have first := waits q List.mem_cons_self
    refine (serveTurn_serves h first b).trans (ih (h.serveTurn first) distinct fun r mem => ?_)
    exact (serveTurn_claimWait w q r fun same => away (same ▸ mem)).2 (waits r (List.mem_cons_of_mem q mem))

theorem serves_modBuf (s : State) {f : BufRec → BufRec} (generation : (f (s.buf d)).generation = (s.buf d).generation)
    (holder : (f (s.buf d)).holder = (s.buf d).holder) (b : BufIx) : s.Serves (s.modBuf d f) b :=
  (leads_modBuf s generation b).serves fun q held => by
    by_cases here : b = d
    · rw [here] at held ⊢
      rwa [buf_modBuf_same, BufRec.heldBy, holder]
    · rwa [buf_modBuf_other _ here]

/-- The pool's records and lists as they are after an update. -/
theorem State.Serves.same (h : s.Serves t b) (buffers : u.buffers = t.buffers) (freeList : u.freeList = t.freeList)
    (claimWait : u.claimWait = t.claimWait) : s.Serves u b :=
  h.trans ((leads_of_same buffers freeList claimWait).serves fun _ => by rw [State.buf, State.buf, buffers]; exact id)

/-- A port becomes a reader of a buffer; who holds the buffer stays. -/
theorem giveEntry_serves (w : Work) (p : Port) (c : ChanIx) (d : BufIx) (long : Bool) (b : BufIx) :
    w.state.Serves (w.giveEntry p c d long).state b := by
  rw [giveEntry_eq]
  show w.state.Serves ((w.state.takes p c d).modEngine p fun e => e.completed .ok ((w.state.buf d).takeWords d)) b
  rw [takes_then_engine]
  exact (serves_modBuf w.state (f := fun r => r.takenBy p (w.state.port p).session.readLease) rfl rfl b).same rfl rfl rfl

theorem takeService_serves (w : Work) (p : Port) (b : BufIx) : w.state.Serves (w.takeService p).state b := by
  unfold Work.takeService
  split
  · exact serves_refl ..
  · rename_i c _
    split
    · split
      · exact serves_refl ..
      · have left : w.state.Serves (w.map fun s => s.leaveTakeWait c p).state b := (serves_refl w.state b).same rfl rfl rfl
        exact left.trans (giveEntry_serves ..)
    · exact serves_refl ..

theorem serveWaiter_serves (h : w.state.PoolBut []) (p : Port) (b : BufIx) : w.state.Serves (w.serveWaiter p).state b := by
  unfold Work.serveWaiter
  split
  · exact serveTurns_serves h h.claims (fun _ => id) b
  · exact takeService_serves w p b

/-! ## CLAIM (R37, R38) -/

theorem claim_ages (w : Work) (p : Port) (b : BufIx) : w.state.Ages (w.claim p).state b := by
  unfold Work.claim
  split
  · exact refuse_ages ..
  · split
    · rename_i d rest list
      obtain ⟨g, state, _⟩ := claimGiven_state (w.map fun s => (s.handOut p d).setFreeList rest) p d false
      rw [state, map_state]
      have handed : w.state.Leads (w.state.handOut p d) b :=
        (leads_modBuf w.state (f := fun r => r.handedTo p (w.state.port p).session.holdLease) rfl b).trans (leads_of_same rfl rfl rfl)
      refine .inl ⟨handed.generation, fun mem => ?_⟩
      rw [list]
      exact List.mem_cons_of_mem d mem
    · split
      · exact refuse_ages ..
      · exact .inl (rests_of_same rfl rfl)

/-! ## RELEASE (R39, R40) -/

/-- A buffer in which a port has a role is not on the Free List. -/
theorem role_off_freeList (h : s.PoolBut []) (role : (s.buf b).roleOf p = true) : b ∉ s.freeList := fun mem =>
  role_not_free role ((h.linked b List.not_mem_nil).free.1 mem)

theorem roleOf_of_held {r : BufRec} (held : r.heldBy p = true) : r.roleOf p = true := by rw [BufRec.roleOf, held]; rfl

theorem roleOf_of_reads {r : BufRec} (reads : r.readBy p = true) : r.roleOf p = true := by rw [BufRec.roleOf, reads, Bool.or_true]

/-- A role ends, and then the buffer enters FREE, if it may. -/
theorem enterFree_ages_after {v : Work} (leads : ∀ e, s.Leads v.state e) (used : d ∉ s.freeList) (b : BufIx) :
    s.Ages (v.enterFree d).state b :=
  (leads b).ages (enterFree_ages (fun mem => used ((leads d).free.1 mem)) b)

theorem lastUse_after {v : Work} (leads : ∀ e, s.Leads v.state e) (used : d ∉ s.freeList) (b : BufIx) :
    s.Ages (v.lastUse d).state b ∧ ∀ q ∈ (v.lastUse d).state.claimWait, q ∈ s.claimWait :=
  ⟨(leads b).ages (lastUse_ages (fun mem => used ((leads d).free.1 mem)) b), fun q mem => (leads b).claims q (lastUse_claims v d q mem)⟩

/-- A record changed but for its generation, and then a port. -/
theorem leads_modBuf_modPort (s : State) {f : BufRec → BufRec} (same : (f (s.buf d)).generation = (s.buf d).generation)
    (g : PortState → PortState) (b : BufIx) : s.Leads ((s.modBuf d f).modPort p g) b :=
  (leads_modBuf s same b).trans (leads_of_same rfl rfl rfl)

theorem release_ages (h : w.state.PoolBut []) (p : Port) (b : BufIx) : w.state.Ages (w.release p).state b := by
  unfold Work.release
  simp only
  split
  · exact refuse_ages ..
  · split
    · rename_i held
      unfold Work.releaseHolding
      split
      · exact refuse_ages ..
      · refine (enterFree_ages_after (fun e => ?_) (role_off_freeList h (roleOf_of_held held)) b).complete ..
        exact (leads_modBuf w.state (f := BufRec.unheld) rfl e).trans (leads_of_same rfl rfl rfl)
    · split
      · rename_i reads
        unfold Work.releaseReader
        refine (lastUse_after (fun e => ?_) (role_off_freeList h (roleOf_of_reads reads)) b).1.complete ..
        exact (leads_modBuf w.state (f := fun r => r.unread p) rfl e).trans (leads_of_same rfl rfl rfl)
      · exact refuse_ages ..

/-! ## ADOPT, QUERY and RENEW (R41, R42, R83) -/

theorem adopt_ages (w : Work) (p : Port) (b : BufIx) : w.state.Ages (w.adopt p).state b := by
  unfold Work.adopt
  split
  · exact refuse_ages ..
  · refine State.Ages.complete (.inl (State.Leads.rests ?_)) ..
    rw [map_state]
    exact leads_modBuf w.state rfl b

theorem query_ages (w : Work) (p : Port) (b : BufIx) : w.state.Ages (w.query p).state b := by
  unfold Work.query
  simp only
  split
  · exact refuse_ages ..
  · exact .inl (complete_trails ..).rests

theorem setLease_generation (r : BufRec) (p : Port) (l : Option Lease) : (r.setLease p l).generation = r.generation := by
  unfold BufRec.setLease
  split <;> rfl

theorem renew_ages (w : Work) (p : Port) (b : BufIx) : w.state.Ages (w.renew p).state b := by
  unfold Work.renew
  simp only
  split
  · exact refuse_ages ..
  · split
    · exact refuse_ages ..
    · refine State.Ages.complete (.inl (State.Leads.rests ?_)) ..
      rw [map_state]
      exact leads_modBuf w.state (setLease_generation ..) b

/-! ## Reclaims (R80, R81) -/

theorem reclaimHolding_ages (h : w.state.PoolBut []) (held : (w.state.buf d).heldBy p = true) (b : BufIx) :
    w.state.Ages (w.reclaimHolding p d).state b ∧ ∀ q ∈ (w.reclaimHolding p d).state.claimWait, q ∈ w.state.claimWait := by
  refine lastUse_after (fun e => ?_) (role_off_freeList h (roleOf_of_held held)) b
  exact (congrArg (fun t => w.state.Leads t e) (loses_port w.state p d (fun m => m.uses d) BufRec.unheld)).mpr
    (leads_modBuf_modPort w.state rfl _ e)

theorem reclaimReader_ages (h : w.state.PoolBut []) (reads : (w.state.buf d).readBy p = true) (b : BufIx) :
    w.state.Ages (w.reclaimReader p d).state b ∧ ∀ q ∈ (w.reclaimReader p d).state.claimWait, q ∈ w.state.claimWait := by
  refine lastUse_after (fun e => ?_) (role_off_freeList h (roleOf_of_reads reads)) b
  exact (congrArg (fun t => w.state.Leads t e) (loses_port w.state p d (fun m => m.readsFrom d) fun r => r.unread p)).mpr
    (leads_modBuf_modPort w.state rfl _ e)

/-! ## Expiries (R77 to R79) -/

theorem modRole_leads (s : State) (x : Position) (f : Role → Role) (b : BufIx) : s.Leads (s.modRole x f) b := by
  unfold State.modRole
  split
  · exact leads_modBuf s rfl b
  · exact leads_modBuf s rfl b

theorem reclaimExpired_ages {x : Position} {r : Role} (h : w.state.PoolBut []) (found : w.state.roleAt x = some r) (b : BufIx) :
    w.state.Ages (w.reclaimExpired x r.port).state b := by
  have told : (w.map fun s => s.place r.port (s.roleRecord .reclaimed x)).state.PoolBut [] := h.place ..
  have before : w.state.Leads (w.map fun s => s.place r.port (s.roleRecord .reclaimed x)).state b :=
    leads_of_same (place_buffers ..) (place_freeList ..) (place_claimWait ..)
  unfold Work.reclaimExpired Work.reclaimAt
  split
  · rename_i holder
    have held := roleAt_holds holder found
    rw [← place_buf w.state r.port (w.state.roleRecord .reclaimed x)] at held
    obtain ⟨ages, claims⟩ := reclaimHolding_ages told held b
    exact (before.ages ages).serves (fun q mem => before.claims q (claims q mem))
      (serveWaiter_serves (told.reclaimHolding List.not_mem_nil held) ..)
  · rename_i reader
    have reads := roleAt_reads reader found
    rw [← place_buf w.state r.port (w.state.roleRecord .reclaimed x)] at reads
    obtain ⟨ages, claims⟩ := reclaimReader_ages told reads b
    exact (before.ages ages).serves (fun q mem => before.claims q (claims q mem))
      (serveWaiter_serves (told.reclaimReader List.not_mem_nil reads) ..)

theorem expiry_ages (h : w.state.PoolBut []) (b : BufIx) : w.state.Ages w.expiry.state b := by
  unfold Work.expiry
  split
  · exact .inl (rests_refl ..)
  · rename_i x _
    have taken : (w.map fun s => s.takeEntry x).state.PoolBut [] := h.takeEntry x
    have before : w.state.Leads (w.map fun s => s.takeEntry x).state b := leads_of_same rfl rfl rfl
    simp only
    split
    · exact .inl before.rests
    · rename_i r expired
      obtain ⟨e, _, role⟩ := Option.bind_eq_some_iff.1 expired
      split
      · refine before.ages (.inl ?_)
        exact (modRole_leads ..).rests.trans (rests_of_same (place_buffers ..) (place_freeList ..))
      · exact before.ages (reclaimExpired_ages taken (expiredRole_spec role) b)

end

end Sys2Proof.Machine
end

section
/-! How a buffer's generation steps in the operations on channels, bulk operations, quotas and sessions (R46 to R66, R106 to R115, R162). -/

namespace Sys2Proof.Machine

section
variable {s t u : State} {w : Work} {p q : Port} {b d : BufIx} {c : ChanIx} {m : Bulk}

theorem State.Serves.rests (h : s.Serves t b) : s.Rests t b := ⟨h.generation, h.free⟩

/-- Steps that may come before a renewal, one after the other. -/
theorem foldl_leads {α : Type} {f : Work → α → Work} (hf : ∀ (w : Work) x, w.state.Leads (f w x).state b) (l : List α) (w : Work) :
    w.state.Leads (l.foldl f w).state b := by
  induction l generalizing w with
  | nil => exact leads_refl ..
  | cons x l ih => exact (hf w x).trans (ih _)

theorem State.Ages.modEngine (h : s.Ages t b) (p : Port) (f : Engine → Engine) : s.Ages (t.modEngine p f) b :=
  h.trails (trails_of_same rfl rfl)

theorem State.Ages.modTeardown (h : s.Ages t b) (p : Port) (f : Teardown → Teardown) : s.Ages (t.modTeardown p f) b :=
  h.trails (trails_of_same rfl rfl)

/-! ## OPEN_CHANNEL, TAKE, CHANNEL_STATUS and CLOSE_CHANNEL (R46, R56, R60, R66) -/

theorem openChannel_ages (w : Work) (p : Port) (b : BufIx) : w.state.Ages (w.openChannel p).state b := by
  unfold Work.openChannel
  split
  · exact refuse_ages ..
  · exact .inl (rests_refl ..)
  · exact State.Ages.complete (.inl (rests_of_same (placeAll_buffers ..) (placeAll_freeList ..))) ..

theorem take_ages (w : Work) (p : Port) (b : BufIx) : w.state.Ages (w.take p).state b := by
  unfold Work.take
  split
  · exact refuse_ages ..
  · exact .inl (rests_refl ..)
  · split
    · exact .inl (giveEntry_serves ..).rests
    · split
      · exact refuse_ages ..
      · exact .inl (rests_of_same rfl rfl)

theorem channelStatus_ages (w : Work) (p : Port) (b : BufIx) : w.state.Ages (w.channelStatus p).state b := by
  unfold Work.channelStatus
  split
  · exact refuse_ages ..
  · exact .inl (complete_trails ..).rests

theorem closeChannel_ages (w : Work) (p : Port) (b : BufIx) : w.state.Ages (w.closeChannel p).state b := by
  unfold Work.closeChannel
  split
  · exact refuse_ages ..
  · exact .inl (rests_refl ..)
  · rename_i c _ _
    have closed : w.state.Leads (w.map fun s => (s.modChan c fun x => { x.closeUnder p with takeWaiters := 0 }).modEngine p fun e =>
        { e with close := some { channel := c, returned := 0, discarded := 0 } }).state b := leads_of_same rfl rfl rfl
    exact .inl (closed.trans (foldl_leads (f := fun w q => w.complete q .channelClosed res0 true) (fun _ _ => leads_of_same rfl rfl rfl) _ _)).rests

/-! ## Entries that leave their queues (R53, R61, R65) -/

theorem dropEntry_leads (s : State) (c : ChanIx) (d b : BufIx) : s.Leads (s.dropEntry c d) b := by
  have left : s.Leads (s.modBuf d BufRec.left) b := leads_modBuf s rfl b
  rw [dropEntry_eq]
  exact left.trans (leads_of_same rfl rfl rfl)

theorem tellOrigin_leads (s : State) (k : RecordKind) (c : ChanIx) (d b : BufIx) : s.Leads (s.tellOrigin k c d) b :=
  (leaves_tellOrigin s k c d b).leads (by rw [tellOrigin_claimWait]; exact fun _ => id)

theorem returnTo_leads (s : State) (o : Port) (d b : BufIx) : s.Leads (s.returnTo o d) b := by
  unfold State.returnTo State.raiseCharge
  exact leads_modBuf_modPort s rfl _ b

theorem disposeEntry_ages (used : d ∉ w.state.freeList) (c : ChanIx) (b : BufIx) : w.state.Ages (w.disposeEntry c d).state b := by
  have dropped (e : BufIx) : w.state.Leads (w.map fun s => s.dropEntry c d).state e := dropEntry_leads ..
  unfold Work.disposeEntry
  simp only
  split
  · exact .inl (dropped b).rests
  · rw [map_state]
    split
    · exact .inl (dropped b).rests
    · exact .inl ((dropped b).trans ((tellOrigin_leads ..).trans (returnTo_leads ..))).rests
  · exact (lastUse_after (v := (w.map fun s => s.dropEntry c d).map fun s => s.tellOrigin .discarded c d)
      (fun e => (dropped e).trans (tellOrigin_leads ..)) used b).1

theorem closeStep_ages (h : w.state.PoolBut []) (p : Port) (b : BufIx) : w.state.Ages (w.closeStep p).state b := by
  unfold Work.closeStep
  split
  · exact .inl (rests_refl ..)
  · rename_i g _
    split
    · exact .inl (complete_trails ..).rests
    · split
      · have closed : w.state.Rests (w.map fun s => s.lastCloseStep g.channel p).state b :=
          rests_of_same (placeAll_buffers ..) (placeAll_freeList ..)
        exact .inl (closed.trans (complete_trails ..).rests)
      · rename_i d rest queue
        have mem : d ∈ (w.state.chan g.channel).queue := by rw [queue]; exact List.mem_cons_self
        have used := entry_not_free (h.linked d List.not_mem_nil) mem
        simp only [map_state]
        exact (disposeEntry_ages used g.channel b).modEngine ..

/-! ## POST (R49 to R54) -/

theorem postRecord_leads (s : State) (p : Port) (d : BufIx) (c : ChanIx) (b : BufIx) : s.Leads (s.postRecord p d c) b := by
  rw [postRecord_eq]
  exact leads_modBuf_modPort s rfl _ b

theorem deliver_leads (w : Work) (q : Port) (c : ChanIx) (d b : BufIx) : w.state.Leads (w.deliver q c d).state b := by
  unfold Work.deliver
  split
  · have reads : w.state.Leads (w.state.addReader q d) b := by
      rw [addReader_eq]
      exact leads_modBuf_modPort w.state rfl _ b
    exact reads.trans (leads_of_same rfl rfl rfl)
  · exact leads_refl ..

theorem deliverAll_leads (w : Work) (c : ChanIx) (d b : BufIx) : w.state.Leads (w.deliverAll c d).state b :=
  foldl_leads (fun w q => deliver_leads w q c d b) _ w

theorem displace_ages (used : ∀ d ∈ (w.state.chan c).queue, d ∉ w.state.freeList) (b : BufIx) : w.state.Ages (w.displace c).state b := by
  unfold Work.displace
  split
  · split
    · exact .inl (rests_refl ..)
    · rename_i d rest queue
      have dropped (e : BufIx) : w.state.Leads (w.map fun s => s.dropEntry c d).state e := dropEntry_leads ..
      simp only
      split
      · exact .inl (dropped b).rests
      · refine (lastUse_after (v := (w.map fun s => s.dropEntry c d).map fun s => s.tellOrigin .displaced c d)
          (fun e => (dropped e).trans (tellOrigin_leads ..)) (used d ?_) b).1
        rw [queue]
        exact List.mem_cons_self
  · exact .inl (rests_refl ..)

theorem postFinish_ages (used : ∀ d ∈ (w.state.chan c).queue, d ∉ w.state.freeList) (d : BufIx) (head : Bool) (b : BufIx) :
    w.state.Ages (w.postFinish c d head).state b := by
  unfold Work.postFinish
  split
  · refine .inl (State.Leads.rests ?_)
    rw [map_state]
    exact leads_modBuf w.state rfl b
  · exact (displace_ages used b).trails (trails_of_same (placeAll_buffers ..) (placeAll_freeList ..))

theorem post_ages (h : s.PoolBut []) (p : Port) (b : BufIx) : s.Ages ((Work.start s).post p).state b := by
  unfold Work.post
  split
  · exact refuse_ages (Work.start s) ..
  · exact .inl (rests_refl ..)
  · rename_i c _ operand
    refine State.Ages.complete ?_ ..
    simp only [start_state]
    have recorded (e : BufIx) := postRecord_leads s p (handleIx (s.operand p 0)) c e
    have delivered (e : BufIx) := deliverAll_leads (Work.start (s.postRecord p (handleIx (s.operand p 0)) c)) c (handleIx (s.operand p 0)) e
    refine ((recorded b).trans (delivered b)).ages (postFinish_ages (fun d mem free => ?_) ..)
    replace free := (recorded d).free.1 ((delivered d).free.1 free)
    have queue : (((Work.start (s.postRecord p (handleIx (s.operand p 0)) c)).deliverAll c (handleIx (s.operand p 0))).state.chan c).queue =
        (s.chan c).queue := (foldl_deliver_setup _ _).2.trans (by rw [postRecord_eq]; rfl)
    exact entry_not_free (h.linked d List.not_mem_nil) (queue ▸ mem) free

/-! ## Bulk operations (R108, R115) -/

theorem startBulk_leads (s : State) (p : Port) (m : Bulk) (b : BufIx) : s.Leads (s.startBulk p m) b := by
  have counted := leads_foldl_modBuf (f := fun r => { r with bulkCount := r.bulkCount + 1 }) (fun _ => rfl) m.touches s b
  exact counted.trans (leads_of_same rfl rfl rfl)

theorem fill_ages (w : Work) (p : Port) (b : BufIx) : w.state.Ages (w.fill p).state b := by
  unfold Work.fill
  split
  · exact refuse_ages ..
  · exact .inl (startBulk_leads ..).rests

theorem copy_ages (w : Work) (p : Port) (b : BufIx) : w.state.Ages (w.copy p).state b := by
  unfold Work.copy
  split
  · exact refuse_ages ..
  · exact .inl (startBulk_leads ..).rests

theorem zeroFillStart_ages (w : Work) (p : Port) (b : BufIx) : w.state.Ages (w.zeroFillStart p).state b := by
  unfold Work.zeroFillStart
  split
  · exact .inl (rests_refl ..)
  · split
    · exact .inl (startBulk_leads ..).rests
    · exact .inl (complete_trails ..).rests

theorem bulkEnded_leads (s : State) (p : Port) (m : Bulk) (b : BufIx) : s.Leads (s.bulkEnded p m) b := by
  have counted := leads_foldl_modBuf (f := fun r => { r with bulkCount := r.bulkCount - 1 }) (fun _ => rfl) m.touches s b
  exact counted.trans (leads_of_same rfl rfl rfl)

theorem endBulk_ages (h : w.state.PoolBut []) (p : Port) (m : Bulk) (b : BufIx) : w.state.Ages (w.endBulk p m).state b := by
  rw [endBulk_eq]
  refine (bulkEnded_leads w.state p m b).ages (enterFrees_ages (w := w.map fun s => s.bulkEnded p m) (drained_nodup ..)
    (fun d mem free => ?_) b)
  replace free := (bulkEnded_leads w.state p m d).free.1 free
  have linked := h.linked d List.not_mem_nil
  have draining := (mem_drained.1 mem).2.1
  rw [linked.free, draining] at free
  exact nomatch free

theorem endStepEngine_ages (h : w.state.PoolBut []) (p : Port) (b : BufIx) : w.state.Ages (w.endStepEngine p).state b := by
  unfold Work.endStepEngine
  split
  · exact .inl (rests_refl ..)
  · exact (endBulk_ages h ..).complete ..

theorem endStepTeardown_ages (h : w.state.PoolBut []) (p : Port) (b : BufIx) : w.state.Ages (w.endStepTeardown p).state b := by
  unfold Work.endStepTeardown
  split
  · exact .inl (rests_refl ..)
  · rw [map_state]
    exact (endBulk_ages h ..).modTeardown ..

/-! ## Windows, parameters, quotas and sessions (R68, R70, R90, R132, R161 to R163) -/

theorem map_ages (w : Work) (p : Port) (b : BufIx) : w.state.Ages (w.map' p).state b := by
  unfold Work.map'
  split
  · exact refuse_ages ..
  · exact .inl (rests_of_same rfl rfl)

theorem setParam_ages (w : Work) (p : Port) (b : BufIx) : w.state.Ages (w.setParam p).state b := by
  unfold Work.setParam
  simp only
  split
  · exact refuse_ages ..
  · split
    · exact refuse_ages ..
    · rename_i x _
      split
      · exact refuse_ages ..
      · obtain ⟨buffers, freeList, _⟩ := setParameter_pool w.state x (w.state.operand p 1).toNat
        exact State.Ages.complete (.inl (rests_of_same ((placeAll_buffers ..).trans buffers) ((placeAll_freeList ..).trans freeList))) ..

theorem clearStatus_ages (w : Work) (p : Port) (b : BufIx) : w.state.Ages (w.clearStatus p).state b := by
  unfold Work.clearStatus
  split
  · exact refuse_ages ..
  · exact .inl (rests_of_same rfl rfl)

theorem changeQuota_ages {v : Nat} (h : w.state.PoolBut []) (charge : (w.state.port q).charge ≤ v) (limit : v ≤ 256) (b : BufIx) :
    w.state.Ages (w.changeQuota q v).state b := by
  have set := (h.setsQuota charge limit).placeAll (w.state.modPort q fun x => { x with quota := v }).attachedPorts
    (mkRecord .paramChanged (quotaCode q) v)
  have told : w.state.Rests ((w.state.modPort q fun x => { x with quota := v }).placeParamChanged (quotaCode q) v) b :=
    rests_of_same (placeAll_buffers ..) (placeAll_freeList ..)
  unfold Work.changeQuota
  simp only
  split
  · exact .inl (told.trans (serveWaiter_serves (w := w.map fun s => State.placeParamChanged _ _ _) set q b).rests)
  · exact .inl told

theorem setQuota_ages (h : w.state.PoolBut []) (p : Port) (b : BufIx) : w.state.Ages (w.setQuota p).state b := by
  unfold Work.setQuota
  split
  · exact refuse_ages ..
  · exact .inl (rests_refl ..)
  · rename_i q accepted operand
    obtain ⟨charge, limit⟩ := quotaRefusal_checks accepted operand
    exact (changeQuota_ages h charge limit b).complete ..

theorem changeSession_ages (w : Work) (p : Port) (x : SessionState) (b : BufIx) : w.state.Ages (w.changeSession p x).state b :=
  State.Ages.complete (.inl (rests_of_same (placeAll_buffers ..) (placeAll_freeList ..))) ..

theorem leaveWaits_rests (s : State) (p : Port) (b : BufIx) : s.Rests (s.leaveWaits p) b := by
  unfold State.leaveWaits
  simp only
  split
  · exact rests_of_same rfl rfl
  · exact rests_of_same rfl rfl

theorem endWait_ages (w : Work) (p : Port) (e : ResultCode) (b : BufIx) : w.state.Ages (w.endWait p e).state b :=
  State.Ages.complete (w := w.map fun s => s.leaveWaits p) (.inl (leaveWaits_rests ..)) ..

end

end Sys2Proof.Machine
end

section
/-! How a buffer's generation steps in a teardown and in the ticks, and over one command: O54 (R6, R8). -/

namespace Sys2Proof.Machine

section
variable {s t u : State} {w : Work} {p q : Port} {b d : BufIx} {c : ChanIx} {code : ReqCode} {op : TableOp} {r : Requester} {m : ReqMoment}

/-! ## The steps of a teardown (R141 to R145) -/

theorem placePeerState_rests (s : State) (p : Port) (x : SessionState) (b : BufIx) : s.Rests (s.placePeerState p x) b :=
  rests_of_same (placeAll_buffers ..) (placeAll_freeList ..)

theorem fence_rests (h : s.PoolBut []) (p : Port) (b : BufIx) : s.Rests (s.fence p) b := by
  obtain ⟨_, _, bufs, _, _, freeList⟩ := fencedOff_frame s p
  have fenced : s.Rests (s.fencedOff p) b := ⟨by rw [bufs], by rw [freeList]; exact id⟩
  rw [fence_eq h.waitsLawful]
  exact fenced.trans (rests_of_same (placeAll_buffers ..) (placeAll_freeList ..))

theorem finishTeardown_rests (s : State) (p : Port) (b : BufIx) : s.Rests (s.finishTeardown p) b :=
  (rests_of_same rfl rfl : s.Rests (s.modPort p PortState.finished) b).trans (placePeerState_rests ..)

theorem reclaimFound_ages (h : w.state.PoolBut []) (found : w.state.searchRole p = some d) (b : BufIx) :
    w.state.Ages (w.reclaimFound p d).state b := by
  have role := (searchRole_spec found).1
  unfold Work.reclaimFound
  rw [map_state]
  refine State.Ages.modTeardown ?_ ..
  split
  · rename_i held
    exact (reclaimHolding_ages h held b).1
  · rename_i held
    rw [BufRec.roleOf, Bool.eq_false_iff.2 held, Bool.false_or] at role
    exact (reclaimReader_ages h role b).1

theorem channelInHand_ages (used : ∀ d ∈ (w.state.chan c).queue, d ∉ w.state.freeList) (p : Port) (b : BufIx) :
    w.state.Ages (w.channelInHand p c).state b := by
  unfold Work.channelInHand
  split
  · exact .inl (rests_of_same rfl rfl)
  · split
    · have closed : w.state.Rests (w.state.lastCloseStep c p) b := rests_of_same (placeAll_buffers ..) (placeAll_freeList ..)
      exact .inl (closed.trans (rests_of_same rfl rfl))
    · rename_i d rest queue
      exact disposeEntry_ages (used d (by rw [queue]; exact List.mem_cons_self)) c b

theorem channelsDone_ages (w : Work) (p : Port) (b : BufIx) : w.state.Ages (w.channelsDone p).state b := by
  unfold Work.channelsDone
  split
  · exact .inl (rests_of_same rfl rfl)
  · exact .inl (finishTeardown_rests ..)

theorem destinationCut_leads (s : State) (c : ChanIx) (p : Port) (x : Chan) (b : BufIx) : s.Leads (s.destinationCut c p x) b := by
  have named : s.Leads (s.modChan c fun _ => x) b := leads_of_same rfl rfl rfl
  exact named.trans (leads_foldl_modBuf (f := fun r => r.withoutPending p) (fun _ => rfl) _ _ b)

theorem destinationGone_ages (h : s.PoolBut []) (c : ChanIx) (p : Port) (x : Chan) (b : BufIx) : s.Ages (s.destinationGone c p x) b := by
  rw [destinationGone_eq]
  refine (destinationCut_leads s c p x b).ages (lastUses_ages ((h.channels c).nodup.filter _) (fun d mem free => ?_) b)
  replace free := (destinationCut_leads s c p x d).free.1 free
  exact entry_not_free (h.linked d List.not_mem_nil) (mem_goneWith.1 mem).1 free

theorem removeDestination_ages (h : s.PoolBut []) (concerns : (s.chan c).concerns p = true) (other : (s.chan c).closer ≠ some p)
    (b : BufIx) : s.Ages ((Work.start s).removeDestination c p).finish b := by
  obtain ⟨u, setup, _⟩ := fanout_of_concerns concerns other
  rw [finish_removeDestination setup (h.channels c).nodup]
  split
  · exact destinationGone_ages h ..
  · exact destinationGone_ages h ..

theorem channelStep_ages (h : s.PoolBut []) (p : Port) (b : BufIx) : s.Ages ((Work.start s).channelStep p).finish b := by
  have used (c : ChanIx) (d : BufIx) (mem : d ∈ (s.chan c).queue) : d ∉ s.freeList := entry_not_free (h.linked d List.not_mem_nil) mem
  cases inHand : (s.port p).teardown.inHand with
  | some c =>
    rw [channelStep_of_inHand inHand]
    exact (channelInHand_ages (w := Work.start s) (used c) p b).finish
  | none =>
    cases found : s.searchChannel p with
    | some c =>
      by_cases closer : (s.chan c).closer = some p
      · have taken : s.Leads (s.modTeardown p fun t => { t with inHand := some c, inHandTakenOver := false }) b := leads_of_same rfl rfl rfl
        rw [channelStep_of_closing inHand found closer]
        exact (taken.ages (channelInHand_ages (w := Work.start (s.modTeardown p fun t => { t with inHand := some c, inHandTakenOver := false }))
          (used c) p b)).finish
      · rw [channelStep_of_fanout inHand found closer, finish_map_modTeardown]
        exact (removeDestination_ages h (searchChannel_spec found).1 closer b).modTeardown ..
    | none =>
      have last : (Work.start s).channelStep p = (Work.start s).channelsDone p := by
        unfold Work.channelStep
        rw [start_state, inHand]
        simp only [found]
      rw [last]
      exact (channelsDone_ages (Work.start s) p b).finish

theorem roleStep_ages (h : s.PoolBut []) (phase : (s.port p).teardown.phase = .roles) (b : BufIx) :
    s.Ages ((Work.start s).roleStep p).finish b := by
  cases found : s.searchRole p with
  | some d =>
    have step : (Work.start s).roleStep p = (Work.start s).reclaimFound p d := by
      unfold Work.roleStep
      rw [start_state, found]
    rw [step]
    exact (reclaimFound_ages (w := Work.start s) h found b).finish
  | none =>
    have before : s.Leads (s.modTeardown p fun t => { t with phase := .channels }) b := leads_of_same rfl rfl rfl
    rw [roleStep_of_none found]
    exact before.ages (channelStep_ages (h.rolesEnd phase found) p b)

/-! ## Ticks (R76, R159) -/

theorem millisecond_rests (s : State) (b : BufIx) : s.Rests s.millisecond b := by
  have record : s.millisecond.buf b = s.tickRoles (s.buf b) := vector_get_map ..
  exact ⟨by rw [record]; rfl, id⟩

theorem intervalExpiry_rests (s : State) (b : BufIx) : s.Rests s.intervalExpiry b := by
  have told (l : List BankIx) : ∀ t : State, s.Rests t b →
      s.Rests (l.foldl (fun t k => t.placeAll t.attachedPorts (mkRecord .refreshMissed k.val 0)) t) b := by
    induction l with
    | nil => exact fun _ ht => ht
    | cons k l ih => exact fun t ht => ih _ (ht.trans (rests_of_same (placeAll_buffers ..) (placeAll_freeList ..)))
  exact told _ _ (rests_of_same rfl rfl)

theorem microsecond_rests (s : State) (b : BufIx) : s.Rests s.microsecond b := by
  have counted : s.Rests ({ s with usDivider := 0 } : State).ageRows.tickInterval b := by
    unfold State.tickInterval
    split
    · have started : s.Rests { ({ s with usDivider := 0 } : State).ageRows with intervalCounter := 0 } b := rests_of_same rfl rfl
      exact started.trans (intervalExpiry_rests ..)
    · exact rests_of_same rfl rfl
  have tick (v : State) (h : s.Rests v b) : s.Rests ({ v with msCounter := 0 } : State).millisecond b := by
    have started : s.Rests { v with msCounter := 0 } b := h.trans (rests_of_same rfl rfl)
    exact started.trans (millisecond_rests ..)
  exact tickMs_keeps (P := fun t => s.Rests t b) (tick _ counted) fun _ => counted.trans (rests_of_same rfl rfl)

theorem tickWhen_rests (s : State) (due : Bool) (b : BufIx) : s.Rests (s.tickWhen due) b := by
  unfold State.tickWhen
  split
  · exact microsecond_rests s b
  · exact rests_refl ..

theorem prstFalls_rests (s : State) (p : Port) (b : BufIx) : s.Rests (s.prstFalls p) b := by
  have withdrawn : s.Rests (s.withdrawAccess p) b := by
    unfold State.withdrawAccess
    split
    · exact rests_of_same rfl rfl
    · exact rests_refl ..
  have low : s.Rests (((s.withdrawAccess p).modPort p PortState.endAccess).setPrst p true) b := withdrawn.trans (rests_of_same rfl rfl)
  unfold State.prstFalls
  simp only
  split
  · exact low.trans (rests_of_same rfl rfl)
  · exact low

/-! ## Table operations and block requests -/

theorem tableOp_ages (h : s.PoolBut []) {body : Work → Work}
    (hb : s.grants r op = true → (s.served r).PoolBut [] → (Work.start (s.served r)).state.Ages (body (Work.start (s.served r))).finish b) :
    s.Ages (s.tableOp r op body) b := by
  have before : s.Leads (s.served r) b := leads_of_same rfl rfl rfl
  unfold State.tableOp
  split
  · rename_i granted
    exact before.ages (hb granted (h.served r))
  · exact .inl (rests_refl ..)

theorem reqWrite_ages (s : State) (p : Port) (x : Word) (l : Lanes) (b : BufIx) : s.Ages (s.reqWrite p x l) b := by
  have same := (poolSame_bus p s).reqWrite x l (poolSame_refl _ s)
  exact .inl (rests_of_same same.buffers same.freeList)

/-- A request's REQ write, or its table operation. -/
theorem request_ages (h : s.PoolBut []) {body : Work → Work}
    (hb : ∀ w : Work, w = Work.start (s.served (.re p)) → w.state.PoolBut [] → w.state.Ages (body w).state b) :
    s.Ages (s.atMoment p code m (s.tableRequest p code body)) b := by
  cases m with
  | written zero head => exact reqWrite_ages ..
  | carriedOut => exact tableOp_ages h fun _ served => (hb _ rfl served).finish

/-- A request's REQ write, or what another block carries out. -/
theorem blockRequest_ages {body : Work → Work} (hb : (Work.start s).state.Ages (body (Work.start s)).state b) :
    s.Ages (s.atMoment p code m (s.blockRequest p code body)) b := by
  cases m with
  | written zero head => exact reqWrite_ages ..
  | carriedOut =>
    show s.Ages (s.blockRequest p code body) b
    unfold State.blockRequest
    split
    · exact hb.finish
    · exact .inl (rests_refl ..)

theorem runRoleStep_ages (h : s.PoolBut []) (p : Port) (b : BufIx) : s.Ages (s.runRoleStep p) b :=
  tableOp_ages h fun granted served => roleStep_ages served (offers_role (grants_offer granted).2).1 b

theorem runChannelStep_ages (h : s.PoolBut []) (p : Port) (b : BufIx) : s.Ages (s.runChannelStep p) b :=
  tableOp_ages h fun _ served => channelStep_ages served p b

theorem runCloseStep_ages (h : s.PoolBut []) (p : Port) (b : BufIx) : s.Ages (s.tableOp (.re p) .closeStep fun w => w.closeStep p) b :=
  tableOp_ages h fun _ served => (closeStep_ages (w := Work.start (s.served (.re p))) served p b).finish

theorem runEndWait_ages (h : s.PoolBut []) (p : Port) (e : ResultCode) (b : BufIx) :
    s.Ages (s.tableOp (.re p) op fun w => w.endWait p e) b :=
  tableOp_ages h fun _ _ => (endWait_ages ..).finish

theorem finalStep_ages (h : s.PoolBut []) (p : Port) (b : BufIx) :
    s.Ages (match (s.port p).teardown.phase with
      | .roles => if s.rolesOver p && s.channelsOver p then s.runRoleStep p else s
      | .channels => if s.channelsOver p then s.runChannelStep p else s
      | .final => s.tableOp (.tu p) .final fun w => w.map fun s => s.finishTeardown p
      | .idle | .fence => s) b := by
  split
  · split
    · exact runRoleStep_ages h p b
    · exact .inl (rests_refl ..)
  · split
    · exact runChannelStep_ages h p b
    · exact .inl (rests_refl ..)
  · refine tableOp_ages h fun _ _ => State.Ages.finish (.inl ?_)
    exact finishTeardown_rests (s.served (.tu p)) p b
  · exact .inl (rests_refl ..)
  · exact .inl (rests_refl ..)

/-! ## Every command -/

/-- A command but the device's reset. -/
theorem exec_ages {i : Instr} (h : s.PoolBut []) (running : i ≠ .resetFalling) (he : exec i s = .next t) (b : BufIx) : s.Ages t b := by
  have ends {u : State} (meaning : Machine.exec i s = done u) (hu : s.Ages u b) : s.Ages t b := by
    rw [next_of_done (meaning.symm.trans he)]
    exact hu.trails (trails_of_same (settle_buffers u) (settle_freeList u))
  have apart (kind : i.busPort.isSome = true ∨ (∃ p m, i = .windowReadGrant p m ∨ i = .windowWriteGrant p m ∨ i = .streamReadGrant p m ∨
      i = .streamWriteGrant p m ∨ i = .fillBurst p m ∨ i = .copyBurstRead p m ∨ i = .copyBurstWrite p m) ∨ ∃ k m, i = .rowRefresh k m) :
      s.Ages t b := by
    obtain ⟨buffers, freeList, _⟩ := (busAndBanksKeepPool i s t he).1 kind
    exact .inl (rests_of_same buffers freeList)
  cases i with
  | claim p m => exact ends rfl (request_ages h fun w _ _ => claim_ages w p b)
  | release p m => exact ends rfl (request_ages h fun w _ hw => release_ages hw p b)
  | adopt p m => exact ends rfl (request_ages h fun w _ _ => adopt_ages w p b)
  | renew p m => exact ends rfl (request_ages h fun w _ _ => renew_ages w p b)
  | query p m => exact ends rfl (request_ages h fun w _ _ => query_ages w p b)
  | openChannel p m => exact ends rfl (request_ages h fun w _ _ => openChannel_ages w p b)
  | post p m => exact ends rfl (request_ages h fun w start hw => by subst start; exact post_ages hw p b)
  | take p m => exact ends rfl (request_ages h fun w _ _ => take_ages w p b)
  | channelStatus p m => exact ends rfl (request_ages h fun w _ _ => channelStatus_ages w p b)
  | closeChannel p m => exact ends rfl (request_ages h fun w _ _ => closeChannel_ages w p b)
  | map p m => exact ends rfl (request_ages h fun w _ _ => map_ages w p b)
  | fill p m => exact ends rfl (request_ages h fun w _ _ => fill_ages w p b)
  | copy p m => exact ends rfl (request_ages h fun w _ _ => copy_ages w p b)
  | setQuota p m => exact ends rfl (request_ages h fun w _ hw => setQuota_ages hw p b)
  | setLease p m => exact ends rfl (blockRequest_ages (.inl (rests_of_same rfl rfl)))
  | unmap p m => exact ends rfl (blockRequest_ages (.inl (rests_of_same rfl rfl)))
  | setParam p m => exact ends rfl (blockRequest_ages (setParam_ages ..))
  | clearStatus p m => exact ends rfl (blockRequest_ages (clearStatus_ages ..))
  | attach p m => exact ends rfl (blockRequest_ages (changeSession_ages ..))
  | quiesce p m => exact ends rfl (blockRequest_ages (changeSession_ages ..))
  | resume p m => exact ends rfl (blockRequest_ages (changeSession_ages ..))
  | detach p m => exact ends rfl (blockRequest_ages (.inl (rests_of_same rfl rfl)))
  | cancelOperation p => exact ends rfl (runEndWait_ages h ..)
  | timeoutOperation p => exact ends rfl (runEndWait_ages h ..)
  | closeStep p =>
    refine ends rfl ?_
    split
    · exact .inl (rests_refl ..)
    · exact runCloseStep_ages h p b
  | closeLastStep p =>
    refine ends rfl ?_
    split
    · exact runCloseStep_ages h p b
    · exact .inl (rests_refl ..)
  | zeroFillStart p => exact ends rfl (tableOp_ages h fun _ _ => (zeroFillStart_ages ..).finish)
  | endStep p =>
    refine ends rfl ?_
    split
    · exact tableOp_ages h fun _ served => (endStepTeardown_ages (w := Work.start (s.served (.tu p))) served p b).finish
    · exact tableOp_ages h fun _ served => (endStepEngine_ages (w := Work.start (s.served (.re p))) served p b).finish
  | expiryOperation => exact ends rfl (tableOp_ages h fun _ served => (expiry_ages (w := Work.start (s.served .lm)) served b).finish)
  | fenceStep p =>
    refine ends rfl (tableOp_ages h fun _ served => State.Ages.finish (.inl ?_))
    exact fence_rests served p b
  | roleStep p => exact ends rfl (runRoleStep_ages h p b)
  | channelStep p =>
    refine ends rfl ?_
    split
    · exact runRoleStep_ages h p b
    · exact runChannelStep_ages h p b
  | finalStep p => exact ends rfl (finalStep_ages h p b)
  | cancel | badRequest | refused | windowRead | streamDataRead | note0Pop | windowWrite | streamDataWrite | streamSettingsWrite
  | pstatWrite | pcfgWrite | registerWrite => exact apart (.inl rfl)
  | windowReadGrant p m => exact apart (.inr (.inl ⟨p, m, .inl rfl⟩))
  | windowWriteGrant p m => exact apart (.inr (.inl ⟨p, m, .inr (.inl rfl)⟩))
  | streamReadGrant p m => exact apart (.inr (.inl ⟨p, m, .inr (.inr (.inl rfl))⟩))
  | streamWriteGrant p m => exact apart (.inr (.inl ⟨p, m, .inr (.inr (.inr (.inl rfl)))⟩))
  | fillBurst p m => exact apart (.inr (.inl ⟨p, m, .inr (.inr (.inr (.inr (.inl rfl))))⟩))
  | copyBurstRead p m => exact apart (.inr (.inl ⟨p, m, .inr (.inr (.inr (.inr (.inr (.inl rfl)))))⟩))
  | copyBurstWrite p m => exact apart (.inr (.inl ⟨p, m, .inr (.inr (.inr (.inr (.inr (.inr rfl)))))⟩))
  | rowRefresh k m => exact apart (.inr (.inr ⟨k, m, rfl⟩))
  | usTick | msTick | intervalExpiry | waitTimerExpiry | leaseRunOut => exact ends rfl (.inl (tickWhen_rests ..))
  | prstFalling p =>
    refine ends rfl ?_
    split
    · exact .inl (rests_refl ..)
    · exact .inl (prstFalls_rests s p b)
  | prstRising p => exact ends rfl (.inl (rests_of_same rfl rfl))
  | resetFalling => exact absurd rfl running
  | resetRising supen sup =>
    refine ends rfl ?_
    split
    · exact .inl (rests_of_same rfl rfl)
    · exact .inl (rests_refl ..)
  | powerOn => exact ends rfl (.inl (rests_of_same rfl rfl))

end

/-- Settles O54: operation by operation, a buffer rests or enters FREE once; by the pool's laws the FREE buffers are those of the Free
List. -/
theorem generationStepsByOne : Obligations.GenerationStepsByOne := by
  unfold Obligations.GenerationStepsByOne
  intro c s t h running he b
  have before := poolBut_nil.2 h
  have listed := ((before.exec he).linked b List.not_mem_nil).free
  have wasListed := (before.linked b List.not_mem_nil).free
  rcases exec_ages before running he b with rests | renews
  · exact .inl ⟨rests.generation, fun used free => used (wasListed.1 (rests.free (listed.2 free)))⟩
  · exact .inr ⟨renews.generation, fun free => renews.used (wasListed.2 free), renews.placed⟩

end Sys2Proof.Machine
end
